-- ==== Sys2Proof/Word.lean ====
section
/-! DEFINITION. The word types of the block and the character constants of 00_scope.md R13. -/

namespace Sys2Proof

/-- A byte: a received or sent character, a payload byte, a flash byte. -/
abbrev Byte := BitVec 8

/-- A 16-bit value: the address field, the extended address (R13). -/
abbrev Half := BitVec 16

/-- A 32-bit value: linear byte addresses and flash word addresses (R13). -/
abbrev Word := BitVec 32

/-- The start code `:` (R13; the code is from general knowledge, G1). -/
def Byte.colon : Byte := 0x3A#8

/-- The line terminator CR (R13). -/
def Byte.cr : Byte := 0x0D#8

/-- XOFF (R13). -/
def Byte.xoff : Byte := 0x13#8

/-- XON (R13). -/
def Byte.xon : Byte := 0x11#8

/-- ACK (R13). -/
def Byte.ack : Byte := 0x06#8

/-- The sum of some bytes modulo 256 (R102: "u8 sum"). -/
def byteSum : List Byte → Byte
  | [] => 0#8
  | b :: bs => b + byteSum bs

end Sys2Proof
end

