-- ==== Sys2Proof/Config.lean ====
section
/-! DEFINITION. The configuration registers of 10_state.md R33, and the one free value of the model. -/

namespace Sys2Proof

/-- The configuration (10_state.md R33): constants, "immutable for the life of the program". A state carries one;
no step changes it. Which values are legal is `Machine.configLegal`. -/
structure Config where
  /-- CFG_ERASE_WORDS, E: the erase unit in flash words (00_scope.md R7). -/
  eraseWords : Word
  /-- CFG_WRITE_WORDS, W: the write unit in flash words (R7). -/
  writeWords : Word
  /-- CFG_LR_START: the first protected word address (R8). -/
  lrStart : Word
  /-- CFG_LR_END: the last protected word address, inclusive (R8). -/
  lrEnd : Word
  /-- CFG_SHARED_UNIT: the word address of the unit that gets the read-modify-write, if any (R9). -/
  sharedUnit : Option Word
  /-- CFG_REDUNDANT: redundant-line mode (R10). -/
  redundant : Bool
  /-- CFG_LINE_CAP: how many bytes one line buffer holds (R11). -/
  lineCap : Nat
  /-- CFG_EOF_FINAL_XON: whether an XON follows the final ACK (R12). -/
  eofFinalXon : Bool
deriving DecidableEq, Repr

/-- FREE VALUE (log entry 8): the bytes a flash device that the spec does not describe answers to FlashRead
(93_implementation_defined.md U3, U4, U11, U15: *any value*). Applied to the counter `State.free`; it has no body, so
no proof can know a value of it. -/
opaque Config.freeByte : Nat → Byte

end Sys2Proof
end

