-- ==== Sys2Proof/Syntax.lean ====
section
/-! DEFINITION. The operations of spec/opcode_table.json, one constructor a row, and the fields of a record. -/

namespace Sys2Proof

/-- The two formats of the opcode table (30_encoding.md R77). -/
inductive Format where
  /-- Selected by the first byte of a line; run in VALIDATE. -/
  | lineC0
  /-- Selected by the record-type byte of a valid record; run in DISPATCH. -/
  | recordTT
deriving DecidableEq, Repr

/-- The fields of a record (10_state.md R28, 30_encoding.md R67), as the record latch holds them. -/
structure Record where
  /-- Byte count. -/
  rc : Byte
  /-- Address field. -/
  ra : Half
  /-- Record type. -/
  rt : Byte
  /-- Payload, in received order; a well-formed record has `rd.length = rc`. -/
  rd : List Byte
  /-- Checksum. -/
  cs : Byte
deriving DecidableEq, Repr

/-- The fields of a record beside its type: what a RECORD_TT operation carries as operands (30_encoding.md R71). -/
structure Fields where
  rc : Byte
  ra : Half
  rd : List Byte
  cs : Byte
deriving DecidableEq, Repr

/-- One constructor per row of spec/opcode_table.json. A LINE_C0 row carries the line's first byte `c` where the row
admits several, and RECORD carries the characters of the content after the start code. A RECORD_TT row carries the
record's fields, and its type byte `rt` where the row admits several. -/
inductive Instr where
  /-- RECORD (41_record_validate.md R95): a line that starts with `:`. -/
  | record (body : List Byte)
  /-- NONRECORD_00_1F (42_record_dispatch.md R108). -/
  | nonrecord00to1F (c : Byte)
  /-- NONRECORD_20_2F (R108). -/
  | nonrecord20to2F (c : Byte)
  /-- NONRECORD_30_37 (R108). -/
  | nonrecord30to37 (c : Byte)
  /-- NONRECORD_38_39 (R108). -/
  | nonrecord38to39 (c : Byte)
  /-- NONRECORD_3B (R108). -/
  | nonrecord3B
  /-- NONRECORD_3C_3F (R108). -/
  | nonrecord3Cto3F (c : Byte)
  /-- NONRECORD_40_7F (R108). -/
  | nonrecord40to7F (c : Byte)
  /-- NONRECORD_80_FF (R108). -/
  | nonrecord80toFF (c : Byte)
  /-- DATA (R109), type 0x00. -/
  | data (f : Fields)
  /-- EOF (R110), type 0x01. -/
  | eof (f : Fields)
  /-- EXTADDR (R112), type 0x04; its byte count is 2 (41_record_validate.md R103), so its payload is two bytes. -/
  | extaddr (ra : Half) (hi lo cs : Byte)
  /-- IGNORED_02 (R113). -/
  | ignored02 (f : Fields)
  /-- IGNORED_03 (R113). -/
  | ignored03 (f : Fields)
  /-- IGNORED_05 (R113). -/
  | ignored05 (f : Fields)
  /-- IGNORED_06_07 (R113). -/
  | ignored06to07 (rt : Byte) (f : Fields)
  /-- IGNORED_08_0F (R113). -/
  | ignored08to0F (rt : Byte) (f : Fields)
  /-- IGNORED_10_1F (R113). -/
  | ignored10to1F (rt : Byte) (f : Fields)
  /-- IGNORED_20_3F (R113). -/
  | ignored20to3F (rt : Byte) (f : Fields)
  /-- IGNORED_40_7F (R113). -/
  | ignored40to7F (rt : Byte) (f : Fields)
  /-- IGNORED_80_FF (R113). -/
  | ignored80toFF (rt : Byte) (f : Fields)
deriving DecidableEq, Repr

/-- The format of an operation's row. -/
def Instr.format : Instr → Format
  | .record _ => .lineC0
  | .nonrecord00to1F _ => .lineC0
  | .nonrecord20to2F _ => .lineC0
  | .nonrecord30to37 _ => .lineC0
  | .nonrecord38to39 _ => .lineC0
  | .nonrecord3B => .lineC0
  | .nonrecord3Cto3F _ => .lineC0
  | .nonrecord40to7F _ => .lineC0
  | .nonrecord80toFF _ => .lineC0
  | .data _ => .recordTT
  | .eof _ => .recordTT
  | .extaddr _ _ _ _ => .recordTT
  | .ignored02 _ => .recordTT
  | .ignored03 _ => .recordTT
  | .ignored05 _ => .recordTT
  | .ignored06to07 _ _ => .recordTT
  | .ignored08to0F _ _ => .recordTT
  | .ignored10to1F _ _ => .recordTT
  | .ignored20to3F _ _ => .recordTT
  | .ignored40to7F _ _ => .recordTT
  | .ignored80toFF _ _ => .recordTT

/-- Why a record line is rejected (60_exceptions.md R137, codes 3 to 6). -/
inductive Reject where
  | badLength
  | badChar
  | badChecksum
  | badExtlen
deriving DecidableEq, Repr

/-- Why the decoder gives no operation for some bytes. -/
inductive DecodeError where
  /-- No byte at all: a line has at least one (30_encoding.md R64). -/
  | emptyLine
  /-- Format RECORD_TT was asked of a line that is not a record line (30_encoding.md R77). -/
  | notRecord
  /-- A record line that fails validation (R72). -/
  | rejected (r : Reject)
deriving DecidableEq, Repr

end Sys2Proof
end

