-- ==== Sys2Proof/WellFormed.lean ====
section
/-! DEFINITION. Which operations are well formed: the operands that an encoding of the spec can carry. -/

namespace Sys2Proof

/-- The bytes of a record before its checksum, in line order (30_encoding.md R67; high address byte first, R69). -/
def Record.body (r : Record) : List Byte :=
  r.rc :: r.ra.extractLsb' 8 8 :: r.ra.extractLsb' 0 8 :: r.rt :: r.rd

/-- The mod-256 check of 41_record_validate.md R102. -/
def Record.checksumOk (r : Record) : Bool := byteSum r.body + r.cs == 0#8

/-- A record that validation accepts (R68, R102, R103): its payload has `rc` bytes, its checksum holds, and a type
0x04 record has byte count 2. -/
def Record.wf (r : Record) : Bool :=
  r.rd.length == r.rc.toNat && r.checksumOk && (r.rt != 0x04#8 || r.rc == 2#8)

/-- The record that the fields `f` and the type `rt` make. -/
def Fields.record (f : Fields) (rt : Byte) : Record :=
  { rc := f.rc, ra := f.ra, rt := rt, rd := f.rd, cs := f.cs }

/-- The fields of a record beside its type. -/
def Record.fields (r : Record) : Fields := { rc := r.rc, ra := r.ra, rd := r.rd, cs := r.cs }

/-- An operation is well formed when its selecting byte lies in its row of spec/opcode_table.json and its record is
one that validation accepts. A line holds no CR before its end (30_encoding.md R63). -/
def Instr.wf : Instr → Bool
  | .record body => !body.contains Byte.cr
  | .nonrecord00to1F c => c &&& 0xE0#8 == 0x00#8
  | .nonrecord20to2F c => c &&& 0xF0#8 == 0x20#8
  | .nonrecord30to37 c => c &&& 0xF8#8 == 0x30#8
  | .nonrecord38to39 c => c &&& 0xFE#8 == 0x38#8
  | .nonrecord3B => true
  | .nonrecord3Cto3F c => c &&& 0xFC#8 == 0x3C#8
  | .nonrecord40to7F c => c &&& 0xC0#8 == 0x40#8
  | .nonrecord80toFF c => c &&& 0x80#8 == 0x80#8
  | .data f => (f.record 0x00#8).wf
  | .eof f => (f.record 0x01#8).wf
  | .extaddr ra hi lo cs => (Record.mk 2#8 ra 0x04#8 [hi, lo] cs).wf
  | .ignored02 f => (f.record 0x02#8).wf
  | .ignored03 f => (f.record 0x03#8).wf
  | .ignored05 f => (f.record 0x05#8).wf
  | .ignored06to07 rt f => rt &&& 0xFE#8 == 0x06#8 && (f.record rt).wf
  | .ignored08to0F rt f => rt &&& 0xF8#8 == 0x08#8 && (f.record rt).wf
  | .ignored10to1F rt f => rt &&& 0xF0#8 == 0x10#8 && (f.record rt).wf
  | .ignored20to3F rt f => rt &&& 0xE0#8 == 0x20#8 && (f.record rt).wf
  | .ignored40to7F rt f => rt &&& 0xC0#8 == 0x40#8 && (f.record rt).wf
  | .ignored80toFF rt f => rt &&& 0x80#8 == 0x80#8 && (f.record rt).wf

end Sys2Proof
end

