-- ==== Sys2Proof/Decode.lean ====
section
/-! DEFINITION. The decoder (total on any bytes, rejecting by name), the opcode table, and the encoder. -/

namespace Sys2Proof

/-! ### Hex characters (30_encoding.md R65, R66) -/

/-- R65: the value of an uppercase hex digit; `none` is INVALID. -/
def hexval (c : Byte) : Option (BitVec 4) :=
  if 0x30#8 ≤ c ∧ c ≤ 0x39#8 then some ((c - 0x30#8).setWidth 4)
  else if 0x41#8 ≤ c ∧ c ≤ 0x46#8 then some ((c - 0x41#8 + 10#8).setWidth 4)
  else none

/-- R66: the byte of two hex characters, the first the high nibble. -/
def hexbyte (cHi cLo : Byte) : Option Byte :=
  match hexval cHi, hexval cLo with
  | some h, some l => some (h.setWidth 8 <<< 4 ||| l.setWidth 8)
  | _, _ => none

/-- The bytes of a run of hex pairs (41_record_validate.md R101); `none` if a character is no uppercase hex digit. -/
def hexBytes : List Byte → Option (List Byte)
  | [] => some []
  | [_] => none
  | cHi :: cLo :: cs =>
    match hexbyte cHi cLo, hexBytes cs with
    | some b, some bs => some (b :: bs)
    | _, _ => none

/-! ### Lines (30_encoding.md R63) -/

/-- R63, R86: a line without its final CR, if it has one. -/
def content (line : List Byte) : List Byte :=
  if line.getLast? = some Byte.cr then line.dropLast else line

/-- 41_record_validate.md R95, checks 2 to 8, in their order, on the content of a record line. -/
def parse (c : List Byte) : Except Reject Record :=
  match c with
  | _ :: c1 :: c2 :: rest =>
    match hexbyte c1 c2 with
    | none => .error .badChar
    | some rc =>
      if c.length ≠ 11 + 2 * rc.toNat then .error .badLength
      else
        match hexBytes rest with
        | none => .error .badChar
        | some (hi :: lo :: rt :: tail) =>
          let r : Record :=
            { rc := rc, ra := hi.setWidth 16 <<< 8 ||| lo.setWidth 16, rt := rt,
              rd := tail.take rc.toNat, cs := tail.getD rc.toNat 0#8 }
          if r.checksumOk = false then .error .badChecksum
          else if rt = 0x04#8 ∧ rc ≠ 2#8 then .error .badExtlen
          else .ok r
        | some _ => .error .badLength
  | _ => .error .badLength

/-! ### Operations -/

/-- Format LINE_C0 (R64): the operation of a line, by its first byte `c`, with the table's masks. -/
def ofFirstByte (c : Byte) (line : List Byte) : Instr :=
  if c &&& 0xE0#8 = 0x00#8 then .nonrecord00to1F c
  else if c &&& 0xF0#8 = 0x20#8 then .nonrecord20to2F c
  else if c &&& 0xF8#8 = 0x30#8 then .nonrecord30to37 c
  else if c &&& 0xFE#8 = 0x38#8 then .nonrecord38to39 c
  else if c = 0x3A#8 then .record ((content line).drop 1)
  else if c = 0x3B#8 then .nonrecord3B
  else if c &&& 0xFC#8 = 0x3C#8 then .nonrecord3Cto3F c
  else if c &&& 0xC0#8 = 0x40#8 then .nonrecord40to7F c
  else .nonrecord80toFF c

/-- Format RECORD_TT (R70): the operation of a record, by its type byte, with the table's masks. A type 0x04 record
must have two payload bytes (R103). -/
def ofRecord (r : Record) : Except DecodeError Instr :=
  if r.rt = 0x00#8 then .ok (.data r.fields)
  else if r.rt = 0x01#8 then .ok (.eof r.fields)
  else if r.rt = 0x02#8 then .ok (.ignored02 r.fields)
  else if r.rt = 0x03#8 then .ok (.ignored03 r.fields)
  else if r.rt = 0x04#8 then
    if r.rc = 2#8 then
      match r.rd with
      | [hi, lo] => .ok (.extaddr r.ra hi lo r.cs)
      | _ => .error (.rejected .badExtlen)
    else .error (.rejected .badExtlen)
  else if r.rt = 0x05#8 then .ok (.ignored05 r.fields)
  else if r.rt &&& 0xFE#8 = 0x06#8 then .ok (.ignored06to07 r.rt r.fields)
  else if r.rt &&& 0xF8#8 = 0x08#8 then .ok (.ignored08to0F r.rt r.fields)
  else if r.rt &&& 0xF0#8 = 0x10#8 then .ok (.ignored10to1F r.rt r.fields)
  else if r.rt &&& 0xE0#8 = 0x20#8 then .ok (.ignored20to3F r.rt r.fields)
  else if r.rt &&& 0xC0#8 = 0x40#8 then .ok (.ignored40to7F r.rt r.fields)
  else .ok (.ignored80toFF r.rt r.fields)

/-- The decoder (R78), on the bytes of one line: format LINE_C0 classes it by its first byte; format RECORD_TT
validates it and selects the operation by its type byte. -/
def decode (fmt : Format) (line : List Byte) : Except DecodeError Instr :=
  match fmt, line with
  | _, [] => .error .emptyLine
  | .lineC0, c :: cs => .ok (ofFirstByte c (c :: cs))
  | .recordTT, c :: cs =>
    if c = Byte.colon then
      match parse (content (c :: cs)) with
      | .error e => .error (.rejected e)
      | .ok r => ofRecord r
    else .error .notRecord

/-! ### Encoder (30_encoding.md R76) -/

/-- The uppercase hex digit of a nibble. -/
def hexDigit (v : BitVec 4) : Byte :=
  if v < 10#4 then 0x30#8 + v.setWidth 8 else 0x41#8 + (v.setWidth 8 - 10#8)

/-- R76, `hex2`: the two digits of a byte, high nibble first. -/
def hex2 (v : Byte) : List Byte := [hexDigit (v.extractLsb' 4 4), hexDigit (v.extractLsb' 0 4)]

/-- The hex pairs of some bytes. -/
def hexText : List Byte → List Byte
  | [] => []
  | b :: bs => hex2 b ++ hexText bs

/-- R76, `ck`: the two's complement of the sum of the bytes before the checksum. -/
def checksumOf (body : List Byte) : Byte := - byteSum body

/-- R76, `enc`: the line of a record, its checksum computed. -/
def enc (rc : Byte) (ra : Half) (rt : Byte) (rd : List Byte) : List Byte :=
  let body := (Record.mk rc ra rt rd 0#8).body
  Byte.colon :: (hexText body ++ hex2 (checksumOf body) ++ [Byte.cr])

/-- R76 on the fields of an operation. -/
def encFields (rt : Byte) (f : Fields) : List Byte := enc f.rc f.ra rt f.rd

/-- A line whose first byte is `c` (R64): `c` and the terminator, or the lone CR where `c` is CR itself. -/
def nonrecordLine (c : Byte) : List Byte := if c = Byte.cr then [c] else [c, Byte.cr]

/-- The line of an operation. -/
def encode : Instr → List Byte
  | .record body => Byte.colon :: (body ++ [Byte.cr])
  | .nonrecord00to1F c => nonrecordLine c
  | .nonrecord20to2F c => nonrecordLine c
  | .nonrecord30to37 c => nonrecordLine c
  | .nonrecord38to39 c => nonrecordLine c
  | .nonrecord3B => nonrecordLine 0x3B#8
  | .nonrecord3Cto3F c => nonrecordLine c
  | .nonrecord40to7F c => nonrecordLine c
  | .nonrecord80toFF c => nonrecordLine c
  | .data f => encFields 0x00#8 f
  | .eof f => encFields 0x01#8 f
  | .extaddr ra hi lo _ => enc 2#8 ra 0x04#8 [hi, lo]
  | .ignored02 f => encFields 0x02#8 f
  | .ignored03 f => encFields 0x03#8 f
  | .ignored05 f => encFields 0x05#8 f
  | .ignored06to07 rt f => encFields rt f
  | .ignored08to0F rt f => encFields rt f
  | .ignored10to1F rt f => encFields rt f
  | .ignored20to3F rt f => encFields rt f
  | .ignored40to7F rt f => encFields rt f
  | .ignored80toFF rt f => encFields rt f

/-! ### The opcode table (30_encoding.md R77) -/

/-- A row of spec/opcode_table.json: its format, match and mask. -/
structure Row where
  fmt : Format
  pat : Byte
  mask : Byte
deriving DecidableEq, Repr

/-- Whether a selecting byte belongs to a row. -/
def Row.admits (r : Row) (c : Byte) : Bool := c &&& r.mask == r.pat

/-- The rows of format LINE_C0, in the table's order. -/
def lineRows : List Row :=
  [⟨.lineC0, 0x3A#8, 0xFF#8⟩, ⟨.lineC0, 0x00#8, 0xE0#8⟩, ⟨.lineC0, 0x20#8, 0xF0#8⟩, ⟨.lineC0, 0x30#8, 0xF8#8⟩,
   ⟨.lineC0, 0x38#8, 0xFE#8⟩, ⟨.lineC0, 0x3B#8, 0xFF#8⟩, ⟨.lineC0, 0x3C#8, 0xFC#8⟩, ⟨.lineC0, 0x40#8, 0xC0#8⟩, ⟨.lineC0, 0x80#8, 0x80#8⟩]

/-- The rows of format RECORD_TT, in the table's order. -/
def typeRows : List Row :=
  [⟨.recordTT, 0x00#8, 0xFF#8⟩, ⟨.recordTT, 0x01#8, 0xFF#8⟩, ⟨.recordTT, 0x04#8, 0xFF#8⟩, ⟨.recordTT, 0x02#8, 0xFF#8⟩,
   ⟨.recordTT, 0x03#8, 0xFF#8⟩, ⟨.recordTT, 0x05#8, 0xFF#8⟩, ⟨.recordTT, 0x06#8, 0xFE#8⟩, ⟨.recordTT, 0x08#8, 0xF8#8⟩,
   ⟨.recordTT, 0x10#8, 0xF0#8⟩, ⟨.recordTT, 0x20#8, 0xE0#8⟩, ⟨.recordTT, 0x40#8, 0xC0#8⟩, ⟨.recordTT, 0x80#8, 0x80#8⟩]

/-- The row of an operation. -/
def Instr.row : Instr → Row
  | .record _ => ⟨.lineC0, 0x3A#8, 0xFF#8⟩
  | .nonrecord00to1F _ => ⟨.lineC0, 0x00#8, 0xE0#8⟩
  | .nonrecord20to2F _ => ⟨.lineC0, 0x20#8, 0xF0#8⟩
  | .nonrecord30to37 _ => ⟨.lineC0, 0x30#8, 0xF8#8⟩
  | .nonrecord38to39 _ => ⟨.lineC0, 0x38#8, 0xFE#8⟩
  | .nonrecord3B => ⟨.lineC0, 0x3B#8, 0xFF#8⟩
  | .nonrecord3Cto3F _ => ⟨.lineC0, 0x3C#8, 0xFC#8⟩
  | .nonrecord40to7F _ => ⟨.lineC0, 0x40#8, 0xC0#8⟩
  | .nonrecord80toFF _ => ⟨.lineC0, 0x80#8, 0x80#8⟩
  | .data _ => ⟨.recordTT, 0x00#8, 0xFF#8⟩
  | .eof _ => ⟨.recordTT, 0x01#8, 0xFF#8⟩
  | .extaddr _ _ _ _ => ⟨.recordTT, 0x04#8, 0xFF#8⟩
  | .ignored02 _ => ⟨.recordTT, 0x02#8, 0xFF#8⟩
  | .ignored03 _ => ⟨.recordTT, 0x03#8, 0xFF#8⟩
  | .ignored05 _ => ⟨.recordTT, 0x05#8, 0xFF#8⟩
  | .ignored06to07 _ _ => ⟨.recordTT, 0x06#8, 0xFE#8⟩
  | .ignored08to0F _ _ => ⟨.recordTT, 0x08#8, 0xF8#8⟩
  | .ignored10to1F _ _ => ⟨.recordTT, 0x10#8, 0xF0#8⟩
  | .ignored20to3F _ _ => ⟨.recordTT, 0x20#8, 0xE0#8⟩
  | .ignored40to7F _ _ => ⟨.recordTT, 0x40#8, 0xC0#8⟩
  | .ignored80toFF _ _ => ⟨.recordTT, 0x80#8, 0x80#8⟩

/-- The byte by which an operation is selected: the line's first byte or the record-type byte. -/
def Instr.selector : Instr → Byte
  | .record _ => Byte.colon
  | .nonrecord00to1F c => c
  | .nonrecord20to2F c => c
  | .nonrecord30to37 c => c
  | .nonrecord38to39 c => c
  | .nonrecord3B => 0x3B#8
  | .nonrecord3Cto3F c => c
  | .nonrecord40to7F c => c
  | .nonrecord80toFF c => c
  | .data _ => 0x00#8
  | .eof _ => 0x01#8
  | .extaddr _ _ _ _ => 0x04#8
  | .ignored02 _ => 0x02#8
  | .ignored03 _ => 0x03#8
  | .ignored05 _ => 0x05#8
  | .ignored06to07 rt _ => rt
  | .ignored08to0F rt _ => rt
  | .ignored10to1F rt _ => rt
  | .ignored20to3F rt _ => rt
  | .ignored40to7F rt _ => rt
  | .ignored80toFF rt _ => rt

/-! ### The table's words (log entry 10) -/

/-- How many bits the row of `rows` that admits `c` fixes. -/
def fixedBits (rows : List Row) (c : Byte) : Nat :=
  match rows.find? (·.admits c) with
  | some r => (List.range 8).countP (r.mask.getLsbD ·)
  | none => 0

/-- DESIGN CHOICE (log entry 10). Both formats of the table are one byte wide and a table word does not say which of
the two it is of: take the format whose row fixes more bits of the byte, and LINE_C0 where both fix as many. -/
def tableFormat (c : Byte) : Format :=
  if fixedBits lineRows c < fixedBits typeRows c then .recordTT else .lineC0

/-- The bytes of a table word, the first byte the least significant. -/
def wordBytes : Nat → Nat → List Byte
  | 0, _ => []
  | n + 1, w => BitVec.ofNat 8 w :: wordBytes n (w / 256)

/-- The record a RECORD_TT table word stands for: its type byte is the word and its other fields are zero (byte count
2 for type 0x04, as 41_record_validate.md R103 demands), with the checksum that goes with them. -/
def tableRecord (rt : Byte) : Record :=
  let rd : List Byte := if rt = 0x04#8 then [0#8, 0#8] else []
  let rc : Byte := if rt = 0x04#8 then 2#8 else 0#8
  { rc := rc, ra := 0#16, rt := rt, rd := rd, cs := checksumOf (Record.mk rc 0#16 rt rd 0#8).body }

/-- The format and the line of a table word: a LINE_C0 byte is a line of that byte and its terminator. -/
def tableLine (nbits w : Nat) : Format × List Byte :=
  match wordBytes (nbits / 8) w with
  | [c] =>
    match tableFormat c with
    | .lineC0 => (.lineC0, nonrecordLine c)
    | .recordTT =>
      let r := tableRecord c
      (.recordTT, enc r.rc r.ra r.rt r.rd)
  | bs => (.lineC0, bs)

/-- The operation the decoder reads from a word of spec/opcode_table.json (log entry 10). -/
def decodeTableWord (nbits w : Nat) : Option Instr :=
  match decode (tableLine nbits w).1 (tableLine nbits w).2 with
  | .ok i => some i
  | .error _ => none

end Sys2Proof
end

