-- ==== Sys2Proof/Machine/State.lean ====
section
/-! DEFINITION. The state of the block and of its ports, plain data, and the state after reset. -/

namespace Sys2Proof.Machine

/-- The state register `st` (10_state.md R22, decision D28). -/
inductive St where
  | await
  | validate
  | dispatch
  | erase
  | write
  | acknowledge
  | resetting
  /-- The unused value 7: no rule reaches it, and the block is stuck in it. -/
  | unused
deriving DecidableEq, Repr

/-- The verdict register (10_state.md R30, 60_exceptions.md R137). -/
inductive Verdict where
  | okRecord
  | okNonrecord
  | pairMismatch
  | badLength
  | badChar
  | badChecksum
  | badExtlen
  /-- The unused code 7. -/
  | unused
deriving DecidableEq, Repr

/-- Which ERASE and WRITE actions a DATA record takes (10_state.md R28). -/
inductive Path where
  | normal
  | rmw
deriving DecidableEq, Repr

/-- One completed port transaction (10_state.md R38-R43): what the outside of the block sees (R35). -/
inductive Event where
  /-- A byte received on RX. -/
  | rx (b : Byte)
  /-- A byte sent on TX. -/
  | tx (b : Byte)
  /-- FlashErase(wa). -/
  | flErase (wa : Word)
  /-- FlashWrite(wa, data, n). -/
  | flWrite (wa : Word) (data : List Byte) (n : Nat)
  /-- FlashRead(wa, n). -/
  | flRead (wa : Word) (n : Nat)
  /-- RSTREQ asserted: DeviceReset(), which is complete with that (log entry 21). -/
  | rstreq
  /-- RST taken. -/
  | rst
deriving DecidableEq, Repr

/-- Which flash device answers the FL port (log entry 8). -/
inductive Device where
  /-- The reference flash of 20_memory.md R58. -/
  | reference
  /-- A device the spec does not describe: it completes every command, and what it answers to FlashRead is free
  (93_implementation_defined.md U3, U4, U11, U15). -/
  | unspecified
deriving DecidableEq, Repr

/-- The bytes of the reference flash FM (R58), by flash byte index `j = 2·wa + lane`: the listed cells in strictly
rising order, none of them blank; an index that is not listed reads as blank (Machine/Ops.lean, log entry 7). -/
abbrev Memory := List Host.Cell

/-- Why the machine stops without a next state. None of them is raised by the hardware, which has no trap
(60_exceptions.md R135); no state that runs from reset reaches one. -/
inductive Fault where
  /-- `st` = 7: raised by the step; "must treat it as stuck" (10_state.md R22, U7). Safe. -/
  | stuckState
  /-- VALIDATE with no byte in buffer 0: raised by the step; a line has at least one byte, so no rule says what
  happens (30_encoding.md R64, log entry 12). Safe. -/
  | emptyLine
  /-- DISPATCH of a type 0x04 latch without exactly two payload bytes: raised by the step; VALIDATE never writes one
  (41_record_validate.md R103, log entry 12). Safe. -/
  | malformedLatch
  /-- ERASE or WRITE on the RMW path with no shared unit configured: raised by the step; DISPATCH never takes that
  path then (43_flash_reconcile.md R124, log entry 12). Safe. -/
  | noSharedUnit
deriving DecidableEq, Repr

/-- Why the model refuses to go on. -/
inductive Refusal where
  /-- No meaning yet: raised by an arm of `exec` (no arm of this model raises it). Safe. -/
  | notModelled (mnemonic : String)
  /-- `refuse(SHARED_STRADDLE)`: raised by DATA for a record partly inside and partly outside the shared unit
  (43_flash_reconcile.md R124, U5). Safe. -/
  | sharedStraddle
  /-- A configuration outside 00_scope.md R7-R11: raised by the step ("a model refuses a configuration that breaks
  one", 10_state.md R33, U6). Safe. -/
  | illegalConfiguration
deriving DecidableEq, Repr

/-- The state: every piece of state of 10_state.md, the inputs at the ports, and the history of the ports. -/
structure State where
  /-- The state register (R22). -/
  st : St
  /-- The phase counter (R32): which transaction of the current state comes next. -/
  ph : Nat
  /-- The receive select (R25): `false` is 0, `true` is 1. -/
  sel : Bool
  /-- Line buffer 0, P_LINE_CAP bytes (R24). -/
  buf0 : List Byte
  /-- Line buffer 1, P_LINE_CAP bytes (R24). -/
  buf1 : List Byte
  /-- How many bytes of buffer 0 are stored (R24). -/
  len0 : Nat
  /-- How many bytes of buffer 1 are stored (R24). -/
  len1 : Nat
  /-- The extended address (R26). -/
  ext : Half
  /-- The next address, a word address (R27). -/
  nextAddr : Option Word
  /-- The record latch (R28). -/
  latch : Record
  /-- The linear byte address of the DATA record (R28). -/
  lin : Word
  /-- Its first word address (R28). -/
  w : Word
  /-- Its last word address (R28). -/
  wl : Word
  /-- Its path (R28). -/
  path : Path
  /-- The acknowledge flag (R29). -/
  ackOk : Bool
  /-- The verdict register (R30). -/
  verdict : Verdict
  /-- The scratch buffer, 2·E bytes (R31). -/
  scratch : List Byte
  /-- The configuration (R33); no step changes it. -/
  cfg : Config
  /-- INPUT. The bytes the channel holds at RX, oldest first (R39, log entry 4). -/
  rx : List Byte
  /-- INPUT. `tx_ready` (R40, log entry 5). -/
  txReady : Bool
  /-- INPUT. `done` of the FL port: whether a command completes (R41, log entry 5). -/
  flDone : Bool
  /-- INPUT. RST is asserted (R43, log entry 6). -/
  rst : Bool
  /-- The flash device at the FL port (log entry 8); no step changes it. -/
  device : Device
  /-- The contents of the reference flash (R58, log entry 7). -/
  flash : Memory
  /-- The model's own counter: the next argument of `Config.freeByte` (log entry 8). -/
  free : Nat
  /-- The model's own history: the completed port transactions, newest first (log entry 9). -/
  trace : List Event
deriving DecidableEq, Repr

/-- The start of a session: the state after reset under a configuration, with a flash device and the image it holds
(R36, R150-R153; the initial image is an argument, 70_reset_and_hazards.md R156); where R36 says "unspecified", the values
of log entry 3. The channel holds no byte, nothing has been sent, and both collaborators answer (R156). -/
def State.resetWith (cfg : Config) (device : Device) (image : Memory) : State :=
  { st := .await
    ph := 0
    sel := false
    buf0 := List.replicate cfg.lineCap 0
    buf1 := List.replicate cfg.lineCap 0
    len0 := 0
    len1 := 0
    ext := 0
    nextAddr := none
    latch := { rc := 0, ra := 0, rt := 0, rd := [], cs := 0 }
    lin := 0
    w := 0
    wl := 0
    path := .normal
    ackOk := false
    verdict := .okRecord
    scratch := List.replicate (2 * cfg.eraseWords.toNat) 0
    cfg := cfg
    rx := []
    txReady := true
    flDone := true
    rst := false
    device := device
    flash := image
    free := 0
    trace := [] }

/-- DESIGN CHOICE (log entry 2): the configuration of `State.reset`, configuration A of 95_test_vectors.md. -/
def configA : Config :=
  { eraseWords := 8
    writeWords := 2
    lrStart := 0x0FC4
    lrEnd := 0x0FFF
    sharedUnit := some 0x0FC0
    redundant := false
    lineCap := 64
    eofFinalXon := false }

/-- The state right after reset: configuration A, the reference flash, and the image with nothing listed (log entries
2, 7 and 8). -/
def State.reset : State := State.resetWith configA .reference []

end Sys2Proof.Machine
end

