-- ==== Sys2Proof/Machine/Ops.lean ====
section
/-! DEFINITION. The shared operations: the sequencer, the reference flash, the port transactions, the line buffers,
and reset. The block has no exceptions to take and none to return from (60_exceptions.md R135); the shared operation
for a malformed unit is `State.reject` (Machine/Flags.lean). -/

namespace Sys2Proof.Machine

/-! ### Sequencer -/

/-- The encoding of `st` (10_state.md R22). -/
def St.code : St → BitVec 3
  | .await => 0#3
  | .validate => 1#3
  | .dispatch => 2#3
  | .erase => 3#3
  | .write => 4#3
  | .acknowledge => 5#3
  | .resetting => 6#3
  | .unused => 7#3

/-- The state of an encoding (R22). -/
def St.ofCode (c : BitVec 3) : St :=
  if c = 0#3 then .await
  else if c = 1#3 then .validate
  else if c = 2#3 then .dispatch
  else if c = 3#3 then .erase
  else if c = 4#3 then .write
  else if c = 5#3 then .acknowledge
  else if c = 6#3 then .resetting
  else .unused

/-- `st <- x`; the phase counter "is 0 on entry to every state" (R32). -/
def State.goto (s : State) (x : St) : State := { s with st := x, ph := 0 }

/-- The next transaction of the same state (R32). -/
def State.nextPhase (s : State) : State := { s with ph := s.ph + 1 }

/-! ### The reference flash (20_memory.md R58) -/

/-- What an index that is not listed reads as: a blank byte (R58; log entry 7). -/
def Memory.blank : Byte := 0xFF#8

/-- The byte of FM at index `j`. -/
def Memory.read : Memory → Nat → Byte
  | [], _ => Memory.blank
  | (k, v) :: m, j => if j = k then v else Memory.read m j

/-- `FM[j] <- v`, keeping the canonical form. -/
def Memory.write : Memory → Nat → Byte → Memory
  | [], j, v => if v = Memory.blank then [] else [(j, v)]
  | (k, u) :: m, j, v =>
    if j < k then (if v = Memory.blank then (k, u) :: m else (j, v) :: (k, u) :: m)
    else if j = k then (if v = Memory.blank then m else (j, v) :: m)
    else (k, u) :: Memory.write m j v

/-- `FM[j + i] <- d[i]` for every byte of `d`. -/
def Memory.writeBytes (m : Memory) (j : Nat) : List Byte → Memory
  | [] => m
  | v :: vs => Memory.writeBytes (m.write j v) (j + 1) vs

/-- The image that holds the bytes `d` from index `j` on and is blank elsewhere: an initial content of FM (R58, R156). -/
def Memory.image (j : Nat) (d : List Byte) : Memory := Memory.writeBytes [] j d

/-- The `n` bytes from index `j` on. -/
def Memory.readBytes (m : Memory) (j : Nat) : Nat → List Byte
  | 0 => []
  | n + 1 => m.read j :: Memory.readBytes m (j + 1) n

/-- Blank every byte of the indexes `lo ≤ j < hi`. -/
def Memory.blankRange (m : Memory) (lo hi : Nat) : Memory := m.filter fun c => c.1 < lo || hi ≤ c.1

/-- The indexes of the cells rise strictly from above `lo` (`none`: from anywhere), and no cell is blank. -/
def Memory.wfFrom : Option Nat → Memory → Bool
  | _, [] => true
  | lo, (k, v) :: m =>
    (match lo with | none => true | some l => decide (l < k)) && v != Memory.blank && Memory.wfFrom (some k) m

/-- The canonical form of a memory. -/
def Memory.wf (m : Memory) : Bool := Memory.wfFrom none m

/-- FlashErase(wa) on FM: the unit of `e` words that holds word `wa`. -/
def Memory.eraseUnit (m : Memory) (e wa : Nat) : Memory :=
  m.blankRange (2 * (wa - wa % e)) (2 * (wa - wa % e + e))

/-! ### Port transactions (00_scope.md R17, 10_state.md R38-R42) -/

/-- A transaction has completed. -/
def State.emit (s : State) (e : Event) : State := { s with trace := e :: s.trace }

/-- FlashErase(wa): the device erases, and the command is on the port. -/
def State.flashErase (s : State) (wa : Word) : State :=
  match s.device with
  | .reference => { s with flash := s.flash.eraseUnit s.cfg.eraseWords.toNat wa.toNat, trace := .flErase wa :: s.trace }
  | .unspecified => s.emit (.flErase wa)

/-- FlashWrite(wa, d, n): `FM[2·wa + i] <- d[i]` for i < n, and the command is on the port. -/
def State.flashWrite (s : State) (wa : Word) (d : List Byte) (n : Nat) : State :=
  match s.device with
  | .reference =>
    { s with flash := s.flash.writeBytes (2 * wa.toNat) (d.take n), trace := .flWrite wa d n :: s.trace }
  | .unspecified => s.emit (.flWrite wa d n)

/-- `n` free values, from the counter value `k` on (log entry 8). -/
def freeBytes (k : Nat) : Nat → List Byte
  | 0 => []
  | n + 1 => Config.freeByte k :: freeBytes (k + 1) n

/-- What the device answers to FlashRead(wa, n). -/
def State.flashAnswer (s : State) (wa : Word) (n : Nat) : List Byte :=
  match s.device with
  | .reference => s.flash.readBytes (2 * wa.toNat) n
  | .unspecified => freeBytes s.free n

/-- `scratch <- FlashRead(wa, n)`; an answer of the unspecified device uses up `n` free values. -/
def State.flashReadScratch (s : State) (wa : Word) (n : Nat) : State :=
  { s with
    scratch := s.flashAnswer wa n
    free := match s.device with | .reference => s.free | .unspecified => s.free + n
    trace := .flRead wa n :: s.trace }

/-! ### Line buffers (10_state.md R24, 40_line_receive.md R80, R89) -/

/-- `buf[sel][len[sel]] <- b; len[sel] <- len[sel] + 1`, the byte taken from RX. -/
def State.storeByte (s : State) (b : Byte) (rest : List Byte) : State :=
  if s.sel then
    { s with buf1 := s.buf1.set s.len1 b, len1 := s.len1 + 1, rx := rest, trace := .rx b :: s.trace }
  else
    { s with buf0 := s.buf0.set s.len0 b, len0 := s.len0 + 1, rx := rest, trace := .rx b :: s.trace }

/-- `len[0] <- 0; len[1] <- 0; sel <- 0` (R89). -/
def State.clearLines (s : State) : State := { s with len0 := 0, len1 := 0, sel := false }

/-! ### Reset (10_state.md R36, R43, 70_reset_and_hazards.md R150) -/

/-- RST is taken: every dynamic state of the block goes to its reset value; the configuration, the collaborators (the
bytes at RX, the flash and its contents, their readiness) and the model's history stay (log entry 6). -/
def State.takeReset (s : State) : State :=
  { State.resetWith s.cfg s.device s.flash with
    rx := s.rx
    txReady := s.txReady
    flDone := s.flDone
    free := s.free
    trace := .rst :: s.trace }

end Sys2Proof.Machine
end

