-- ==== Sys2Proof/Machine/Operands.lean ====
section
/-! DEFINITION. What the rules compute from the state: lines, addresses, ranges, the erase decision, the configuration
checks, and the outputs of the ports. -/

namespace Sys2Proof.Machine

/-! ### Configuration (00_scope.md R7-R11, 10_state.md R33) -/

/-- The legal values of R33. -/
def configLegal (c : Config) : Bool :=
  1 ≤ c.writeWords.toNat && c.writeWords.toNat ≤ c.eraseWords.toNat &&
  c.eraseWords.toNat % c.writeWords.toNat == 0 &&
  c.lrStart.toNat ≤ c.lrEnd.toNat &&
  (match c.sharedUnit with | none => true | some a => a.toNat % c.eraseWords.toNat == 0) &&
  1 ≤ c.lineCap

/-- R9: the default of P_SHARED_UNIT for a loader region that starts at `lrStart`. -/
def defaultSharedUnit (eraseWords lrStart : Word) : Option Word :=
  if lrStart.toNat % eraseWords.toNat ≠ 0 then
    some (BitVec.ofNat 32 (lrStart.toNat - lrStart.toNat % eraseWords.toNat))
  else none

/-! ### Lines (40_line_receive.md R86) -/

/-- The line in buffer 0. -/
def State.line0 (s : State) : List Byte := s.buf0.take s.len0

/-- The line in buffer 1. -/
def State.line1 (s : State) : List Byte := s.buf1.take s.len1

/-- How many bytes the buffer that is being filled holds. -/
def State.lenSel (s : State) : Nat := if s.sel then s.len1 else s.len0

/-! ### Addresses (43_flash_reconcile.md R117-R119, R130) -/

/-- R117: `lin = (zext_32(ext) << 16) | zext_32(ra)`. -/
def linearAddr (ext ra : Half) : Word := ext.setWidth 32 <<< 16 ||| ra.setWidth 32

/-- R118: `w = lin >> 1`. -/
def firstWord (lin : Word) : Word := lin >>> 1

/-- R119: `wl = (lin + rc - 1) >> 1`, exact, for rc ≥ 1. -/
def lastWord (lin : Word) (rc : Byte) : Word := BitVec.ofNat 32 ((lin.toNat + rc.toNat - 1) / 2)

/-- R130: the word after the last word. -/
def wordAfter (wl : Word) : Word := wl + 1#32

/-! ### Ranges of words -/

/-- R121: the words `w .. wl` overlap the loader region. -/
def overlapsLoader (c : Config) (w wl : Word) : Bool :=
  w.toNat ≤ c.lrEnd.toNat && c.lrStart.toNat ≤ wl.toNat

/-- R124: the words `w .. wl` intersect the unit of `e` words at `u`. -/
def meetsUnit (u : Word) (e : Nat) (w wl : Word) : Bool :=
  w.toNat ≤ u.toNat + e - 1 && u.toNat ≤ wl.toNat

/-- R124: the words `w .. wl` lie in the unit of `e` words at `u`. -/
def insideUnit (u : Word) (e : Nat) (w wl : Word) : Bool :=
  u.toNat ≤ w.toNat && wl.toNat ≤ u.toNat + e - 1

/-! ### The erase decision (R125) -/

/-- R125: `NB(n) = ceil(n / E) * E`. -/
def nextBoundary (e n : Nat) : Nat := (n + e - 1) / e * e

/-- R125: whether a normal DATA record at word `w` erases the unit first. -/
def eraseNeeded (e : Nat) (w : Word) (nextAddr : Option Word) : Bool :=
  w.toNat % e == 0 &&
  match nextAddr with
  | none => true
  | some n => w != n && nextBoundary e n.toNat ≤ w.toNat

/-! ### The merge of the read-modify-write (R128) -/

/-- `for i in 0 .. : buf[k + i] <- d[i]`. -/
def mergeAt (buf : List Byte) (k : Nat) : List Byte → List Byte
  | [] => buf
  | d :: ds => mergeAt (buf.set k d) (k + 1) ds

/-! ### The end-of-session sequence (42_record_dispatch.md R111) -/

/-- The transactions of RESETTING, in order. -/
def resettingOps (c : Config) : List Event :=
  [.tx Byte.ack, .tx Byte.xon, .tx Byte.ack] ++ (if c.eofFinalXon then [.tx Byte.xon] else []) ++ [.rstreq]

/-! ### What the ports show (10_state.md R39-R42, 70_reset_and_hazards.md R164) -/

/-- `rx_ready` (R39): only in AWAIT, and not while XOFF is being sent. -/
def State.rxReady (s : State) : Bool := s.st == .await && s.ph == 0

/-- `rx_valid` (R39). -/
def State.rxValid (s : State) : Bool := !s.rx.isEmpty

/-- The byte the block offers on TX, `tx_valid` being whether there is one (R40). -/
def State.txData (s : State) : Option Byte :=
  match s.st with
  | .await => if s.ph = 0 then none else some Byte.xoff
  | .acknowledge => if s.ph = 0 ∧ s.ackOk then some Byte.ack else some Byte.xon
  | .resetting => match (resettingOps s.cfg)[s.ph]? with | some (.tx b) => some b | _ => none
  | _ => none

/-- The command the block offers on FL, if any (R41, 43_flash_reconcile.md R127-R129). -/
def State.flRequest (s : State) : Option Event :=
  match s.st, s.path, s.cfg.sharedUnit with
  | .erase, .normal, _ => some (.flErase s.w)
  | .erase, .rmw, some u =>
    if s.ph = 0 then some (.flRead u (2 * s.cfg.eraseWords.toNat))
    else if s.ph = 1 then none
    else some (.flErase u)
  | .write, .normal, _ => some (.flWrite s.w s.latch.rd s.latch.rc.toNat)
  | .write, .rmw, some u => some (.flWrite u s.scratch (2 * s.cfg.eraseWords.toNat))
  | _, _, _ => none

/-- The bytes of the TX stream in a history, oldest first (R164). -/
def txBytes (t : List Event) : List Byte :=
  t.reverse.filterMap fun e => match e with | .tx b => some b | _ => none

/-- The commands of the FL port in a history, oldest first (R164). -/
def flCommands (t : List Event) : List Event :=
  t.reverse.filter fun e => match e with | .flErase _ => true | .flWrite _ _ _ => true | .flRead _ _ => true | _ => false

/-- Whether RSTREQ has been asserted in a history (R164). -/
def rstreqAsserted (t : List Event) : Bool := t.contains .rstreq

end Sys2Proof.Machine
end

