-- ==== Sys2Proof/Machine/Flags.lean ====
section
/-! DEFINITION. The flags: `verdict` and `ackOk` (10_state.md R29, R30), and the shared operations that write them. -/

namespace Sys2Proof.Machine

/-- The encoding of the verdict (60_exceptions.md R137). -/
def Verdict.code : Verdict → BitVec 3
  | .okRecord => 0#3
  | .okNonrecord => 1#3
  | .pairMismatch => 2#3
  | .badLength => 3#3
  | .badChar => 4#3
  | .badChecksum => 5#3
  | .badExtlen => 6#3
  | .unused => 7#3

/-- The verdict of an encoding (R137). -/
def Verdict.ofCode (c : BitVec 3) : Verdict :=
  if c = 0#3 then .okRecord
  else if c = 1#3 then .okNonrecord
  else if c = 2#3 then .pairMismatch
  else if c = 3#3 then .badLength
  else if c = 4#3 then .badChar
  else if c = 5#3 then .badChecksum
  else if c = 6#3 then .badExtlen
  else .unused

/-- The verdict of a rejected record line. -/
def Verdict.ofReject : Reject → Verdict
  | .badLength => .badLength
  | .badChar => .badChar
  | .badChecksum => .badChecksum
  | .badExtlen => .badExtlen

/-- `verdict <- v; ackOk <- a`. -/
def State.setFlags (s : State) (v : Verdict) (a : Bool) : State := { s with verdict := v, ackOk := a }

/-- 41_record_validate.md R95: `reject(V)`. -/
def State.reject (s : State) (v : Verdict) : State := (s.setFlags v false).goto .acknowledge

/-- R96, 42_record_dispatch.md R108: a non-record line is acknowledged. -/
def State.acceptNonrecord (s : State) : State := (s.setFlags .okNonrecord true).goto .acknowledge

/-- R104: a valid record is latched and dispatched. -/
def State.acceptRecord (s : State) (r : Record) : State :=
  ({ s with latch := r }.setFlags .okRecord true).goto .dispatch

end Sys2Proof.Machine
end

