-- ==== Sys2Proof/Machine/LineC0.lean ====
section
/-! DEFINITION. The meanings of the LINE_C0 operations, which VALIDATE runs (41_record_validate.md, R108). -/

namespace Sys2Proof.Machine

/-- RECORD (R95, R97-R104): validate the content, of which `body` is what follows the start code. -/
def execRecord (body : List Byte) (s : State) : Host.Outcome State Fault Refusal :=
  match parse (Byte.colon :: body) with
  | .error e => .next (s.reject (Verdict.ofReject e))
  | .ok r => .next (s.acceptRecord r)

/-- NONRECORD_00_1F (R96, R108): the line's bytes are never looked at. -/
def execNonrecord00to1F (_c : Byte) (s : State) : Host.Outcome State Fault Refusal := .next s.acceptNonrecord

/-- NONRECORD_20_2F (R96, R108). -/
def execNonrecord20to2F (_c : Byte) (s : State) : Host.Outcome State Fault Refusal := .next s.acceptNonrecord

/-- NONRECORD_30_37 (R96, R108). -/
def execNonrecord30to37 (_c : Byte) (s : State) : Host.Outcome State Fault Refusal := .next s.acceptNonrecord

/-- NONRECORD_38_39 (R96, R108). -/
def execNonrecord38to39 (_c : Byte) (s : State) : Host.Outcome State Fault Refusal := .next s.acceptNonrecord

/-- NONRECORD_3B (R96, R108). -/
def execNonrecord3B (s : State) : Host.Outcome State Fault Refusal := .next s.acceptNonrecord

/-- NONRECORD_3C_3F (R96, R108). -/
def execNonrecord3Cto3F (_c : Byte) (s : State) : Host.Outcome State Fault Refusal := .next s.acceptNonrecord

/-- NONRECORD_40_7F (R96, R108). -/
def execNonrecord40to7F (_c : Byte) (s : State) : Host.Outcome State Fault Refusal := .next s.acceptNonrecord

/-- NONRECORD_80_FF (R96, R108). -/
def execNonrecord80toFF (_c : Byte) (s : State) : Host.Outcome State Fault Refusal := .next s.acceptNonrecord

end Sys2Proof.Machine
end

