-- ==== Sys2Proof/Machine/RecordTT.lean ====
section
/-! DEFINITION. The meanings of the RECORD_TT operations, which DISPATCH runs (42_record_dispatch.md). The flash commands
of a DATA record follow in ERASE and WRITE (Machine/Sequencer.lean). -/

namespace Sys2Proof.Machine

/-- R109: `lin`, `w` and `wl` of a DATA record. -/
def State.latchAddresses (s : State) (f : Fields) : State :=
  { s with
    lin := linearAddr s.ext f.ra
    w := firstWord (linearAddr s.ext f.ra)
    wl := lastWord (linearAddr s.ext f.ra) f.rc }

/-- `path <- p; st <- x` (R109). -/
def State.takePath (s : State) (p : Path) (x : St) : State := { s with path := p }.goto x

/-- R125: the normal path, with or without an erase of the unit first. -/
def State.normalPath (s : State) : State :=
  if eraseNeeded s.cfg.eraseWords.toNat s.w s.nextAddr then s.takePath .normal .erase
  else s.takePath .normal .write

/-- R123-R125: how an unprotected DATA record is written, once its addresses are latched. -/
def State.chooseWrite (s : State) : Host.Outcome State Fault Refusal :=
  if s.cfg.eraseWords = s.cfg.writeWords then .next (s.takePath .normal .write)
  else
    match s.cfg.sharedUnit with
    | none => .next s.normalPath
    | some u =>
      if meetsUnit u s.cfg.eraseWords.toNat s.w s.wl then
        if insideUnit u s.cfg.eraseWords.toNat s.w s.wl then .next (s.takePath .rmw .erase)
        else .refused .sharedStraddle
      else .next s.normalPath

/-- DATA (R109, 43_flash_reconcile.md R117-R125). -/
def execData (f : Fields) (s : State) : Host.Outcome State Fault Refusal :=
  if f.rc = 0#8 then .next (s.goto .acknowledge)
  else
    let t := s.latchAddresses f
    if overlapsLoader t.cfg t.w t.wl then .next (t.goto .acknowledge)
    else t.chooseWrite

/-- EOF (R110): the record's fields are ignored. -/
def execEof (_f : Fields) (s : State) : Host.Outcome State Fault Refusal := .next (s.goto .resetting)

/-- EXTADDR (R112): `ext <- (rd[0] << 8) | rd[1]`. -/
def execExtaddr (_ra : Half) (hi lo _cs : Byte) (s : State) : Host.Outcome State Fault Refusal :=
  .next ({ s with ext := hi.setWidth 16 <<< 8 ||| lo.setWidth 16 }.goto .acknowledge)

/-- IGNORED_02 (R113). -/
def execIgnored02 (_f : Fields) (s : State) : Host.Outcome State Fault Refusal := .next (s.goto .acknowledge)

/-- IGNORED_03 (R113). -/
def execIgnored03 (_f : Fields) (s : State) : Host.Outcome State Fault Refusal := .next (s.goto .acknowledge)

/-- IGNORED_05 (R113). -/
def execIgnored05 (_f : Fields) (s : State) : Host.Outcome State Fault Refusal := .next (s.goto .acknowledge)

/-- IGNORED_06_07 (R113). -/
def execIgnored06to07 (_rt : Byte) (_f : Fields) (s : State) : Host.Outcome State Fault Refusal :=
  .next (s.goto .acknowledge)

/-- IGNORED_08_0F (R113). -/
def execIgnored08to0F (_rt : Byte) (_f : Fields) (s : State) : Host.Outcome State Fault Refusal :=
  .next (s.goto .acknowledge)

/-- IGNORED_10_1F (R113). -/
def execIgnored10to1F (_rt : Byte) (_f : Fields) (s : State) : Host.Outcome State Fault Refusal :=
  .next (s.goto .acknowledge)

/-- IGNORED_20_3F (R113). -/
def execIgnored20to3F (_rt : Byte) (_f : Fields) (s : State) : Host.Outcome State Fault Refusal :=
  .next (s.goto .acknowledge)

/-- IGNORED_40_7F (R113). -/
def execIgnored40to7F (_rt : Byte) (_f : Fields) (s : State) : Host.Outcome State Fault Refusal :=
  .next (s.goto .acknowledge)

/-- IGNORED_80_FF (R113). -/
def execIgnored80toFF (_rt : Byte) (_f : Fields) (s : State) : Host.Outcome State Fault Refusal :=
  .next (s.goto .acknowledge)

end Sys2Proof.Machine
end

