-- ==== Sys2Proof/Machine/Dispatch.lean ====
section
/-! DEFINITION. The dispatch: one arm per operation, each one direct call of its meaning. -/

namespace Sys2Proof.Machine

/-- The meaning of an operation. -/
def exec (i : Instr) (s : State) : Host.Outcome State Fault Refusal :=
  match i with
  | .record body => Sys2Proof.Machine.execRecord body s
  | .nonrecord00to1F c => Sys2Proof.Machine.execNonrecord00to1F c s
  | .nonrecord20to2F c => Sys2Proof.Machine.execNonrecord20to2F c s
  | .nonrecord30to37 c => Sys2Proof.Machine.execNonrecord30to37 c s
  | .nonrecord38to39 c => Sys2Proof.Machine.execNonrecord38to39 c s
  | .nonrecord3B => Sys2Proof.Machine.execNonrecord3B s
  | .nonrecord3Cto3F c => Sys2Proof.Machine.execNonrecord3Cto3F c s
  | .nonrecord40to7F c => Sys2Proof.Machine.execNonrecord40to7F c s
  | .nonrecord80toFF c => Sys2Proof.Machine.execNonrecord80toFF c s
  | .data f => Sys2Proof.Machine.execData f s
  | .eof f => Sys2Proof.Machine.execEof f s
  | .extaddr ra hi lo cs => Sys2Proof.Machine.execExtaddr ra hi lo cs s
  | .ignored02 f => Sys2Proof.Machine.execIgnored02 f s
  | .ignored03 f => Sys2Proof.Machine.execIgnored03 f s
  | .ignored05 f => Sys2Proof.Machine.execIgnored05 f s
  | .ignored06to07 rt f => Sys2Proof.Machine.execIgnored06to07 rt f s
  | .ignored08to0F rt f => Sys2Proof.Machine.execIgnored08to0F rt f s
  | .ignored10to1F rt f => Sys2Proof.Machine.execIgnored10to1F rt f s
  | .ignored20to3F rt f => Sys2Proof.Machine.execIgnored20to3F rt f s
  | .ignored40to7F rt f => Sys2Proof.Machine.execIgnored40to7F rt f s
  | .ignored80toFF rt f => Sys2Proof.Machine.execIgnored80toFF rt f s

end Sys2Proof.Machine
end

