-- ==== Sys2Proof/Machine/Sequencer.lean ====
section
/-! DEFINITION. What the block does in each value of `st` (10_state.md R23): one step is one port transaction or one
internal computation (R44). A transaction that its collaborator does not complete leaves the state as it is (log
entries 4 and 5). -/

namespace Sys2Proof.Machine

/-- One transmitted byte, and then `k`; the block waits while TX is not ready (R40). -/
def State.send (s : State) (b : Byte) (k : State → State) : Host.Outcome State Fault Refusal :=
  if s.txReady then .next (k (s.emit (.tx b))) else .next s

/-- One flash command, whose effect is `k`; the block waits while the device does not answer (R41). -/
def State.command (s : State) (k : State → State) : Host.Outcome State Fault Refusal :=
  if s.flDone then .next (k s) else .next s

/-! ### AWAIT (40_line_receive.md R80-R84) -/

/-- R81: the byte `b`, stored as the last one, completes the line. -/
def lineComplete (c : Config) (len : Nat) (b : Byte) : Bool := b == Byte.cr || len == c.lineCap

/-- What follows a stored byte: nothing, the second line of a pair (R84), or XOFF (R83, R84), which phase 1 sends. -/
def State.afterByte (s : State) (b : Byte) : State :=
  if lineComplete s.cfg s.lenSel b then
    if s.cfg.redundant && !s.sel then { s with sel := true } else s.nextPhase
  else s

/-- R80, R83, R84. -/
def stepAwait (s : State) : Host.Outcome State Fault Refusal :=
  if s.ph = 0 then
    match s.rx with
    | [] => .next s
    | b :: rest => .next ((s.storeByte b rest).afterByte b)
  else s.send Byte.xoff (·.goto .validate)

/-! ### VALIDATE (40_line_receive.md R87, R88, 41_record_validate.md R95) -/

/-- The operation that VALIDATE runs: the LINE_C0 decoding of the line in buffer 0. -/
def fetchLine (s : State) : Except DecodeError Instr := decode .lineC0 s.line0

/-- R87: the two lines of a pair differ. -/
def State.pairDiffers (s : State) : Bool := s.cfg.redundant && content s.line0 != content s.line1

/-- R87, then the operation of the line. -/
def stepValidate (s : State) : Host.Outcome State Fault Refusal :=
  if s.pairDiffers then .next (s.reject .pairMismatch)
  else
    match fetchLine s with
    | .ok i => exec i s
    | .error _ => .fault .emptyLine

/-! ### DISPATCH (42_record_dispatch.md R107) -/

/-- The operation that DISPATCH runs: that of the record in the latch. -/
def fetchRecord (s : State) : Except DecodeError Instr := ofRecord s.latch

/-- R107. -/
def stepDispatch (s : State) : Host.Outcome State Fault Refusal :=
  match fetchRecord s with
  | .ok i => exec i s
  | .error _ => .fault .malformedLatch

/-! ### ERASE (43_flash_reconcile.md R127, R128) -/

/-- R128: the payload is merged into `scratch`. -/
def State.mergePayload (s : State) (u : Word) : State :=
  { s with scratch := mergeAt s.scratch (2 * (s.w.toNat - u.toNat)) (s.latch.rd.take s.latch.rc.toNat) }

/-- R127: `FlashErase(w); st <- WRITE`. -/
def eraseNormal (s : State) : Host.Outcome State Fault Refusal :=
  s.command fun s => (s.flashErase s.w).goto .write

/-- R128, the actions of ERASE: read the unit (phase 0), merge the payload (phase 1, an internal computation, log
entry 1), erase the unit (phase 2). -/
def eraseRmw (u : Word) (s : State) : Host.Outcome State Fault Refusal :=
  if s.ph = 0 then
    s.command fun s => (s.flashReadScratch u (2 * s.cfg.eraseWords.toNat)).nextPhase
  else if s.ph = 1 then .next (s.mergePayload u).nextPhase
  else s.command fun s => (s.flashErase u).goto .write

/-- R127, R128. -/
def stepErase (s : State) : Host.Outcome State Fault Refusal :=
  match s.path, s.cfg.sharedUnit with
  | .normal, _ => eraseNormal s
  | .rmw, some u => eraseRmw u s
  | .rmw, none => .fault .noSharedUnit

/-! ### WRITE (R128-R130) -/

/-- R130: `nextAddr <- SOME(wl + 1)`, then ACKNOWLEDGE. -/
def State.wrote (s : State) : State := { s with nextAddr := some (wordAfter s.wl) }.goto .acknowledge

/-- R129: `FlashWrite(w, rd, rc)`. -/
def writeNormal (s : State) : Host.Outcome State Fault Refusal :=
  s.command fun s => (s.flashWrite s.w s.latch.rd s.latch.rc.toNat).wrote

/-- R128: `FlashWrite(S, scratch, 2*E)`. -/
def writeRmw (u : Word) (s : State) : Host.Outcome State Fault Refusal :=
  s.command fun s => (s.flashWrite u s.scratch (2 * s.cfg.eraseWords.toNat)).wrote

/-- R128, R129. -/
def stepWrite (s : State) : Host.Outcome State Fault Refusal :=
  match s.path, s.cfg.sharedUnit with
  | .normal, _ => writeNormal s
  | .rmw, some u => writeRmw u s
  | .rmw, none => .fault .noSharedUnit

/-! ### ACKNOWLEDGE (40_line_receive.md R89) -/

/-- R89: ACK first, if `ackOk` is set; then XON, and back to AWAIT with empty lines. -/
def stepAcknowledge (s : State) : Host.Outcome State Fault Refusal :=
  if s.ph = 0 ∧ s.ackOk = true then s.send Byte.ack (·.nextPhase)
  else s.send Byte.xon (·.clearLines.goto .await)

/-! ### RESETTING (42_record_dispatch.md R111, R114) -/

/-- R111: the next transaction of the sequence; after DeviceReset() the block takes no step (R114). DESIGN CHOICE (log
entry 21): DeviceReset() completes in the step that asserts RSTREQ, since R42 names no response to wait for. -/
def stepResetting (s : State) : Host.Outcome State Fault Refusal :=
  match (resettingOps s.cfg)[s.ph]? with
  | some (.tx b) => s.send b (·.nextPhase)
  | some e => .next (s.emit e).nextPhase
  | none => .next s

/-! ### All of them -/

/-- The action of the current state. -/
def stepState (s : State) : Host.Outcome State Fault Refusal :=
  match s.st with
  | .await => stepAwait s
  | .validate => stepValidate s
  | .dispatch => stepDispatch s
  | .erase => stepErase s
  | .write => stepWrite s
  | .acknowledge => stepAcknowledge s
  | .resetting => stepResetting s
  | .unused => .fault .stuckState

/-- A step: an illegal configuration is refused (R33); RST acts in any state (R43); else the current state acts. -/
def stepBlock (s : State) : Host.Outcome State Fault Refusal :=
  if configLegal s.cfg = false then .refused .illegalConfiguration
  else if s.rst then .next s.takeReset
  else stepState s

/-! ### Placing an operation where the next step fetches it (log entries 10 and 11) -/

/-- The bytes `bs` as the received line (in redundant mode, as both lines of the pair), ready for VALIDATE. -/
def State.placeLine (s : State) (bs : List Byte) : State :=
  { s with
    buf0 := mergeAt s.buf0 0 bs
    len0 := bs.length
    buf1 := if s.cfg.redundant then mergeAt s.buf1 0 bs else s.buf1
    len1 := if s.cfg.redundant then bs.length else 0
    sel := s.cfg.redundant
    rst := false }.goto .validate

/-- The record line `bs` of the record `r` received and validated, ready for DISPATCH. -/
def State.placeRecord (s : State) (bs : List Byte) (r : Record) : State := (s.placeLine bs).acceptRecord r

/-- What `withFetchWord` does. -/
def State.placeTableWord (s : State) (nbits w : Nat) : State :=
  match tableLine nbits w with
  | (.lineC0, bs) => s.placeLine bs
  | (.recordTT, bs) =>
    match parse (content bs) with
    | .ok r => s.placeRecord bs r
    | .error _ => s

end Sys2Proof.Machine
end

