-- ==== Sys2Proof/Machine/Step.lean ====
section
/-! DEFINITION. One step of the block, and an operation placed where the next step fetches it. -/

namespace Sys2Proof.Machine

/-- One step: one port transaction or one internal computation (10_state.md R44). -/
def step (s : State) : Host.Outcome State Fault Refusal := stepBlock s

/-- The state in which the next step fetches and runs the operation of a word of spec/opcode_table.json: a LINE_C0
word is a line in the buffers, in VALIDATE; a RECORD_TT word is a record in the latch, in DISPATCH (log entries 10, 11). -/
def State.withFetchWord (s : State) (nbits w : Nat) : State := s.placeTableWord nbits w

end Sys2Proof.Machine
end

