-- ==== Sys2Proof/Safety.lean ====
section
/-! DEFINITION. What counts as a safe state and a safe history, in the terms the statements use. -/

namespace Sys2Proof.Machine

/-- The configuration is legal and RST is not asserted: the state register says what the next step does. -/
abbrev State.running (s : State) : Prop := configLegal s.cfg = true ∧ s.rst = false

/-- `k` steps, stopping at the first fault or refusal; it is the host's `run` of the machine
(`Machine/Core.lean`; Laws/Run.lean says so). -/
def runSteps : Nat → State → Host.Outcome State Fault Refusal
  | 0, s => .next s
  | k + 1, s =>
    match step s with
    | .next t => runSteps k t
    | .fault r => .fault r
    | .refused r => .refused r

/-! ### Lines -/

/-- A complete line for a buffer of `cap` bytes (40_line_receive.md R81): it has a byte, no CR stands before its last
byte, and it ends in CR or fills the buffer. -/
def lineWhole (cap : Nat) (l : List Byte) : Prop :=
  l ≠ [] ∧ Byte.cr ∉ l.dropLast ∧ (l.getLast? = some Byte.cr ∨ l.length = cap)

/-- The lines of the unit of transfer are complete (R81, R84). -/
def State.unitReceived (s : State) : Prop :=
  lineWhole s.cfg.lineCap s.line0 ∧ (s.cfg.redundant = true → lineWhole s.cfg.lineCap s.line1)

/-- The line that is being filled has room and no CR yet (R80, R81); buffer 1 is filled only after buffer 0 holds a
complete line (R84). -/
def State.unitOpen (s : State) : Prop :=
  if s.sel then
    lineWhole s.cfg.lineCap s.line0 ∧ s.len1 < s.cfg.lineCap ∧ Byte.cr ∉ s.line1
  else s.len0 < s.cfg.lineCap ∧ Byte.cr ∉ s.line0 ∧ s.len1 = 0

/-! ### Records -/

/-- The latch holds the record of the line in buffer 0, which is valid (41_record_validate.md R104), and in redundant
mode the pair matched (40_line_receive.md R87). -/
def State.recordLatched (s : State) : Prop :=
  s.line0.head? = some Byte.colon ∧ parse (content s.line0) = .ok s.latch ∧ s.pairDiffers = false ∧
  s.verdict = .okRecord ∧ s.ackOk = true

/-- The latch holds a DATA record that is to be written, with its addresses (42_record_dispatch.md R109); it does not
overlap the loader region (43_flash_reconcile.md R121), and its path is one that DISPATCH takes (R123-R125). -/
def State.dataLatched (s : State) : Prop :=
  s.recordLatched ∧ s.latch.rt = 0x00#8 ∧ s.latch.rc ≠ 0#8 ∧
  s.lin = linearAddr s.ext s.latch.ra ∧ s.w = firstWord s.lin ∧ s.wl = lastWord s.lin s.latch.rc ∧
  overlapsLoader s.cfg s.w s.wl = false ∧
  (s.path = .normal →
    s.cfg.eraseWords = s.cfg.writeWords ∨
    ∀ u, s.cfg.sharedUnit = some u → meetsUnit u s.cfg.eraseWords.toNat s.w s.wl = false) ∧
  (s.path = .rmw →
    s.cfg.eraseWords ≠ s.cfg.writeWords ∧
    ∃ u, s.cfg.sharedUnit = some u ∧ insideUnit u s.cfg.eraseWords.toNat s.w s.wl = true)

/-! ### The invariant -/

/-- What `st` and `ph` say about the rest of the state (10_state.md R23, R32, R37). -/
def State.stageOk (s : State) : Prop :=
  match s.st with
  | .await => (s.ph = 0 ∧ s.unitOpen) ∨ (s.ph = 1 ∧ s.unitReceived)
  | .validate => s.ph = 0 ∧ s.unitReceived
  | .dispatch => s.ph = 0 ∧ s.unitReceived ∧ s.recordLatched
  | .erase =>
    s.unitReceived ∧ s.dataLatched ∧ s.cfg.eraseWords ≠ s.cfg.writeWords ∧
    (s.ph = 0 ∨ (s.path = .rmw ∧ s.ph ≤ 2)) ∧
    (s.path = .normal → s.w.toNat % s.cfg.eraseWords.toNat = 0)
  | .write => s.ph = 0 ∧ s.unitReceived ∧ s.dataLatched
  | .acknowledge => s.unitReceived ∧ (s.ph = 0 ∨ (s.ph = 1 ∧ s.ackOk = true))
  | .resetting => s.unitReceived ∧ s.recordLatched ∧ s.latch.rt = 0x01#8 ∧ s.ph ≤ (resettingOps s.cfg).length
  | .unused => False

/-- The invariant of the block: the registers keep their sizes (10_state.md R24, R31, R37), buffer 1 is used only in
redundant mode (R24, R25), the reference flash keeps its canonical form, and the stage is one the rules reach. -/
structure Inv (s : State) : Prop where
  legal : configLegal s.cfg = true
  buf0 : s.buf0.length = s.cfg.lineCap
  buf1 : s.buf1.length = s.cfg.lineCap
  len0 : s.len0 ≤ s.cfg.lineCap
  len1 : s.len1 ≤ s.cfg.lineCap
  scratch : s.scratch.length = 2 * s.cfg.eraseWords.toNat
  single : s.cfg.redundant = false → s.sel = false ∧ s.len1 = 0
  flash : s.flash.wf = true
  stage : s.stageOk

/-! ### Histories (newest event first) -/

/-- Whether the sender may send (40_line_receive.md R85): from the start, after an XON and after a reset; not after an
XOFF. -/
def gateOpen : List Event → Bool
  | [] => true
  | .tx b :: t => if b = Byte.xoff then false else if b = Byte.xon then true else gateOpen t
  | .rst :: _ => true
  | _ :: t => gateOpen t

/-- An event that the gate allows after the history `t` (R85, 20_memory.md R56): bytes are received only while it is
open, and flash commands are issued only while it is closed. -/
def gateAllows (t : List Event) : Event → Bool
  | .rx _ => gateOpen t
  | .flErase _ => !gateOpen t
  | .flWrite _ _ _ => !gateOpen t
  | .flRead _ _ => !gateOpen t
  | _ => true

/-- Every event of a history was allowed when it happened. -/
def gated : List Event → Bool
  | [] => true
  | e :: t => gateAllows t e && gated t

/-- The gate and the state register agree, and the history kept to the gate. -/
structure GateInv (s : State) : Prop where
  gated : gated s.trace = true
  opened : s.st = .await → gateOpen s.trace = true
  closed : s.st = .validate ∨ s.st = .dispatch ∨ s.st = .erase ∨ s.st = .write ∨ s.st = .acknowledge →
    gateOpen s.trace = false

/-- A flash command that respects the loader region (20_memory.md R54, 43_flash_reconcile.md R122): a write whose words
are outside the region, an erase of a unit whose words are outside the region, a read, or a command on the shared unit. -/
def flashSafe (c : Config) : Event → Prop
  | .flErase a =>
    a.toNat % c.eraseWords.toNat = 0 ∧
    (c.sharedUnit = some a ∨ c.lrEnd.toNat < a.toNat ∨ a.toNat + c.eraseWords.toNat ≤ c.lrStart.toNat)
  | .flWrite a _ n =>
    c.sharedUnit = some a ∨ c.lrEnd.toNat < a.toNat ∨ 2 * a.toNat + n ≤ 2 * c.lrStart.toNat
  | .flRead a _ => c.sharedUnit = some a
  | _ => True

end Sys2Proof.Machine
end

