-- ==== Sys2Proof/Certificates/Slice0/Obligations.lean ====
section
/-! DEFINITION. The statements for the provers. `runSteps k s` is `k` steps from `s` (Safety.lean).

Three choices of the model run through them: `trace` is the model's record of the completed port transactions (log entry
9), the bytes at RX are the list `rx` (log entry 4), `txReady` and `flDone` are fields, and a step whose collaborator does
not answer leaves the state as it is (log entries 4 and 5). -/

open Sys2Proof Sys2Proof.Machine

/-! ### Encoding -/

/-- R65: a hex digit is one of '0'..'9', 'A'..'F', and its value is the one the rule gives; nothing else has one. -/
def Obligations.HexDigitValues : Prop :=
  ∀ (c : Byte) (v : BitVec 4),
    hexval c = some v ↔
      (0x30 ≤ c.toNat ∧ c.toNat ≤ 0x39 ∧ v.toNat = c.toNat - 0x30) ∨
      (0x41 ≤ c.toNat ∧ c.toNat ≤ 0x46 ∧ v.toNat = c.toNat - 0x41 + 10)

/-- R66: a pair of hex digits is a byte, the first digit its high nibble; it is defined only when both are digits. -/
def Obligations.HexPairHighNibbleFirst : Prop :=
  ∀ cHi cLo b : Byte,
    hexbyte cHi cLo = some b ↔
      ∃ h l, hexval cHi = some h ∧ hexval cLo = some l ∧ b.toNat = 16 * h.toNat + l.toNat

/-- R77: within each format the rows are disjoint and cover all 256 bytes. -/
def Obligations.TableRowsPartitionTheBytes : Prop :=
  (∀ c : Byte, (lineRows.filter (·.admits c)).length = 1) ∧ (∀ c : Byte, (typeRows.filter (·.admits c)).length = 1)

/-- R115: every first byte selects one operation, every type byte of a valid record one operation, each of the row that
admits the byte; a record line that fails validation selects none. -/
def Obligations.EveryLineSelectsOneOperation : Prop :=
  (∀ (c : Byte) (cs : List Byte), ∃ i, decode .lineC0 (c :: cs) = .ok i ∧ i.format = .lineC0 ∧ i.selector = c ∧
    i.row ∈ lineRows ∧ i.row.admits c = true) ∧
  (∀ (cs : List Byte) (r : Record), parse (content (Byte.colon :: cs)) = .ok r →
    ∃ i, decode .recordTT (Byte.colon :: cs) = .ok i ∧ i.format = .recordTT ∧ i.selector = r.rt ∧
      i.row ∈ typeRows ∧ i.row.admits r.rt = true) ∧
  (∀ (cs : List Byte) (e : Reject), parse (content (Byte.colon :: cs)) = .error e →
    decode .recordTT (Byte.colon :: cs) = .error (.rejected e))

/-- Decoding what the encoder writes for a well-formed operation gives the operation back, every operand included. -/
def Obligations.DecodeOfEncodeIsInstruction : Prop :=
  ∀ i : Instr, i.wf = true → decode i.format (encode i) = .ok i

/-- R105: when RECORD accepts a line, the latch holds exactly the encoded fields: encoding them gives the line's content
followed by CR. -/
def Obligations.LatchedFieldsEncodeToTheLine : Prop :=
  ∀ (body : List Byte) (s t : State), exec (.record body) s = .next t → t.st = .dispatch →
    enc t.latch.rc t.latch.ra t.latch.rt t.latch.rd = Byte.colon :: (body ++ [Byte.cr])

/-- Lines of the spec's examples decode to the operations they stand for, in both formats, and the table words of some
rows do. The two formats' table words are the model's reading (log entry 10). -/
def Obligations.ExampleLinesDecode : Prop :=
  -- `:0300300002337A1E` CR (C1)
  decode .recordTT
      [0x3A, 0x30, 0x33, 0x30, 0x30, 0x33, 0x30, 0x30, 0x30, 0x30, 0x32, 0x33, 0x33, 0x37, 0x41, 0x31, 0x45, 0x0D] =
    .ok (.data { rc := 3, ra := 0x0030, rd := [0x02, 0x33, 0x7A], cs := 0x1E }) ∧
  -- `:00000001FF` CR
  decode .recordTT [0x3A, 0x30, 0x30, 0x30, 0x30, 0x30, 0x30, 0x30, 0x31, 0x46, 0x46, 0x0D] =
    .ok (.eof { rc := 0, ra := 0, rd := [], cs := 0xFF }) ∧
  -- `:020000040001F9` CR
  decode .recordTT [0x3A, 0x30, 0x32, 0x30, 0x30, 0x30, 0x30, 0x30, 0x34, 0x30, 0x30, 0x30, 0x31, 0x46, 0x39, 0x0D] =
    .ok (.extaddr 0 0x00 0x01 0xF9) ∧
  -- `:000000FF01` CR (V38)
  decode .recordTT [0x3A, 0x30, 0x30, 0x30, 0x30, 0x30, 0x30, 0x46, 0x46, 0x30, 0x31, 0x0D] =
    .ok (.ignored80toFF 0xFF { rc := 0, ra := 0, rd := [], cs := 0x01 }) ∧
  decode .lineC0 [0x3A, 0x30, 0x0D] = .ok (.record [0x30]) ∧
  decode .lineC0 [0x23, 0x20, 0x0D] = .ok (.nonrecord20to2F 0x23) ∧
  decode .lineC0 [0x0D] = .ok (.nonrecord00to1F 0x0D) ∧
  decodeTableWord 8 0x3A = some (.record []) ∧
  decodeTableWord 8 0x01 = some (.eof { rc := 0, ra := 0, rd := [], cs := 0xFF })

/-- R95, R97-R103: the checks of validation in their fixed order, and the fields of a valid record; `m` is the length of
the content. -/
def Obligations.ValidationChecksInOrder : Prop :=
  ∀ body : List Byte,
    let c := Byte.colon :: body
    (c.length < 3 → parse c = .error .badLength) ∧
    ∀ c1 c2 rest, body = c1 :: c2 :: rest →
      ((hexval c1 = none ∨ hexval c2 = none) → parse c = .error .badChar) ∧
      ∀ rc, hexbyte c1 c2 = some rc →
        (c.length ≠ 11 + 2 * rc.toNat → parse c = .error .badLength) ∧
        (c.length = 11 + 2 * rc.toNat →
          ((∃ d ∈ rest, hexval d = none) → parse c = .error .badChar) ∧
          ∀ b, hexBytes body = some b →
            ((b.map BitVec.toNat).sum % 256 ≠ 0 → parse c = .error .badChecksum) ∧
            ((b.map BitVec.toNat).sum % 256 = 0 →
              (b.getD 3 0#8 = 0x04#8 ∧ rc ≠ 2#8 → parse c = .error .badExtlen) ∧
              (¬(b.getD 3 0#8 = 0x04#8 ∧ rc ≠ 2#8) →
                parse c = .ok
                  { rc := rc, ra := BitVec.ofNat 16 (256 * (b.getD 1 0#8).toNat + (b.getD 2 0#8).toNat), rt := b.getD 3 0#8,
                    rd := (b.drop 4).take rc.toNat, cs := b.getD (4 + rc.toNat) 0#8 })))

/-- R102 (corner case): changing one hex digit after the byte count of a valid record line makes its checksum fail. -/
def Obligations.OneChangedDigitFailsTheChecksum : Prop :=
  ∀ (body : List Byte) (r : Record) (j : Nat) (c : Byte),
    parse (Byte.colon :: body) = .ok r → 2 ≤ j → j < body.length → hexval c ≠ none → body[j]? ≠ some c →
    parse (Byte.colon :: body.set j c) = .error .badChecksum

/-! ### Results of the LINE_C0 operations -/

/-- R96, R108: a non-record line is acknowledged: only the verdict, `ackOk` and the sequencer are written. -/
def Obligations.NonrecordLinesAreAcknowledged : Prop :=
  ∀ (c : Byte) (s : State),
    let t : State := { s with verdict := .okNonrecord, ackOk := true, st := .acknowledge, ph := 0 }
    exec (.nonrecord00to1F c) s = .next t ∧ exec (.nonrecord20to2F c) s = .next t ∧
    exec (.nonrecord30to37 c) s = .next t ∧ exec (.nonrecord38to39 c) s = .next t ∧
    exec .nonrecord3B s = .next t ∧ exec (.nonrecord3Cto3F c) s = .next t ∧
    exec (.nonrecord40to7F c) s = .next t ∧ exec (.nonrecord80toFF c) s = .next t

/-- R95: a record line that fails a check is rejected with that verdict: no record action, `ackOk` = 0. -/
def Obligations.InvalidRecordLineIsRejected : Prop :=
  ∀ (body : List Byte) (s : State) (e : Reject), parse (Byte.colon :: body) = .error e →
    exec (.record body) s = .next { s with verdict := Verdict.ofReject e, ackOk := false, st := .acknowledge, ph := 0 } ∧
    (Verdict.ofReject e).code.toNat =
      (match e with | .badLength => 3 | .badChar => 4 | .badChecksum => 5 | .badExtlen => 6)

/-- R104: a valid record is latched and goes to DISPATCH with verdict OK_RECORD and `ackOk` = 1. -/
def Obligations.ValidRecordIsLatched : Prop :=
  ∀ (body : List Byte) (s : State) (r : Record), parse (Byte.colon :: body) = .ok r →
    exec (.record body) s =
      .next { s with latch := r, verdict := .okRecord, ackOk := true, st := .dispatch, ph := 0 }

/-- Frame of the LINE_C0 operations: only `st`, `ph`, `verdict`, `ackOk` and, for RECORD, the latch may change; every
byte of flash reads as before. -/
def Obligations.LineOperationsFrame : Prop :=
  ∀ (i : Instr) (s t : State), i.format = .lineC0 → exec i s = .next t →
    (∃ x v a l, t = { s with st := x, ph := 0, verdict := v, ackOk := a, latch := l } ∧
      ((∀ body, i ≠ .record body) → l = s.latch)) ∧
    (∀ j, t.flash.read j = s.flash.read j)

/-! ### Results of the RECORD_TT operations -/

/-- R110: EOF goes to RESETTING; nothing else is written. -/
def Obligations.EofGoesToResetting : Prop :=
  ∀ (f : Fields) (s : State), exec (.eof f) s = .next { s with st := .resetting, ph := 0 }

/-- R112: EXTADDR writes `rd[0] ‖ rd[1]` to `ext` and nothing else, and is acknowledged. -/
def Obligations.ExtaddrSetsTheExtendedAddress : Prop :=
  ∀ (ra : Half) (hi lo cs : Byte) (s : State),
    exec (.extaddr ra hi lo cs) s =
      .next { s with ext := BitVec.ofNat 16 (256 * hi.toNat + lo.toNat), st := .acknowledge, ph := 0 }

/-- R113: a record of an unlisted type is acknowledged and changes nothing else. -/
def Obligations.IgnoredRecordsAreAcknowledged : Prop :=
  ∀ (rt : Byte) (f : Fields) (s : State),
    let t : State := { s with st := .acknowledge, ph := 0 }
    exec (.ignored02 f) s = .next t ∧ exec (.ignored03 f) s = .next t ∧ exec (.ignored05 f) s = .next t ∧
    exec (.ignored06to07 rt f) s = .next t ∧ exec (.ignored08to0F rt f) s = .next t ∧
    exec (.ignored10to1F rt f) s = .next t ∧ exec (.ignored20to3F rt f) s = .next t ∧
    exec (.ignored40to7F rt f) s = .next t ∧ exec (.ignored80toFF rt f) s = .next t

/-- R117-R119, R130: the address arithmetic, in exact integers. -/
def Obligations.AddressArithmetic : Prop :=
  ∀ (ext ra : Half) (rc : Byte), rc ≠ 0#8 →
    let lin := ext.toNat * 65536 + ra.toNat
    (linearAddr ext ra).toNat = lin ∧
    (firstWord (linearAddr ext ra)).toNat = lin / 2 ∧ lin / 2 ≤ 0x7FFFFFFF ∧
    (lastWord (linearAddr ext ra) rc).toNat = (lin + rc.toNat - 1) / 2 ∧ (lin + rc.toNat - 1) / 2 ≤ 0x8000007E ∧
    (wordAfter (lastWord (linearAddr ext ra) rc)).toNat = (lin + rc.toNat - 1) / 2 + 1

/-- R120: a DATA record with byte count 0 is acknowledged and changes nothing else. -/
def Obligations.EmptyDataChangesNothing : Prop :=
  ∀ (f : Fields) (s : State), f.rc = 0#8 → exec (.data f) s = .next { s with st := .acknowledge, ph := 0 }

/-- R121: a DATA record whose words overlap the loader region is skipped and acknowledged; only its latched addresses
change. -/
def Obligations.ProtectedDataIsSkipped : Prop :=
  ∀ (f : Fields) (s : State),
    let lin := s.ext.toNat * 65536 + f.ra.toNat
    let wl := (lin + f.rc.toNat - 1) / 2
    f.rc ≠ 0#8 → lin / 2 ≤ s.cfg.lrEnd.toNat → s.cfg.lrStart.toNat ≤ wl →
    exec (.data f) s =
      .next { s with lin := BitVec.ofNat 32 lin, w := BitVec.ofNat 32 (lin / 2), wl := BitVec.ofNat 32 wl,
                     st := .acknowledge, ph := 0 }

/-- R123: with E = W an unprotected DATA record goes to WRITE on the normal path, whatever the shared unit. -/
def Obligations.EqualGeometryNeverErases : Prop :=
  ∀ (f : Fields) (s : State),
    let lin := s.ext.toNat * 65536 + f.ra.toNat
    let wl := (lin + f.rc.toNat - 1) / 2
    f.rc ≠ 0#8 → (s.cfg.lrEnd.toNat < lin / 2 ∨ wl < s.cfg.lrStart.toNat) → s.cfg.eraseWords = s.cfg.writeWords →
    exec (.data f) s =
      .next { s with lin := BitVec.ofNat 32 lin, w := BitVec.ofNat 32 (lin / 2), wl := BitVec.ofNat 32 wl,
                     path := .normal, st := .write, ph := 0 }

/-- R124 (E > W): an unprotected DATA record that meets the shared unit takes the read-modify-write if it lies in the
unit, and is refused if it straddles its edge. -/
def Obligations.SharedUnitSelection : Prop :=
  ∀ (f : Fields) (s : State) (u : Word),
    let lin := s.ext.toNat * 65536 + f.ra.toNat
    let w := lin / 2
    let wl := (lin + f.rc.toNat - 1) / 2
    let e := s.cfg.eraseWords.toNat
    f.rc ≠ 0#8 → (s.cfg.lrEnd.toNat < w ∨ wl < s.cfg.lrStart.toNat) → s.cfg.eraseWords ≠ s.cfg.writeWords →
    s.cfg.sharedUnit = some u → w ≤ u.toNat + e - 1 → u.toNat ≤ wl →
    (u.toNat ≤ w ∧ wl ≤ u.toNat + e - 1 →
      exec (.data f) s =
        .next { s with lin := BitVec.ofNat 32 lin, w := BitVec.ofNat 32 w, wl := BitVec.ofNat 32 wl,
                       path := .rmw, st := .erase, ph := 0 }) ∧
    (¬(u.toNat ≤ w ∧ wl ≤ u.toNat + e - 1) → exec (.data f) s = .refused .sharedStraddle)

/-- R125 (E > W): an unprotected DATA record that does not meet the shared unit erases its unit first exactly if its
first word is a unit base and either nothing has been written in the session or the word is not `n` and lies at or
beyond the first unit boundary at or after `n`. -/
def Obligations.EraseDecision : Prop :=
  ∀ (f : Fields) (s : State),
    let lin := s.ext.toNat * 65536 + f.ra.toNat
    let w := lin / 2
    let wl := (lin + f.rc.toNat - 1) / 2
    let e := s.cfg.eraseWords.toNat
    let latched : State :=
      { s with lin := BitVec.ofNat 32 lin, w := BitVec.ofNat 32 w, wl := BitVec.ofNat 32 wl, path := .normal, ph := 0 }
    let jump := w % e = 0 ∧
      (s.nextAddr = none ∨
        ∃ n b, s.nextAddr = some n ∧ w ≠ n.toNat ∧ b % e = 0 ∧ n.toNat ≤ b ∧
          (∀ k, k % e = 0 → n.toNat ≤ k → b ≤ k) ∧ b ≤ w)
    configLegal s.cfg = true → f.rc ≠ 0#8 → (s.cfg.lrEnd.toNat < w ∨ wl < s.cfg.lrStart.toNat) →
    s.cfg.eraseWords ≠ s.cfg.writeWords →
    (∀ u, s.cfg.sharedUnit = some u → u.toNat + e - 1 < w ∨ wl < u.toNat) →
    (jump → exec (.data f) s = .next { latched with st := .erase }) ∧
    (¬jump → exec (.data f) s = .next { latched with st := .write })

/-- R126: the erase decision is "aligned, and nothing written yet or beyond `nextAddr`"; for an aligned word both readings
of "the next erase-unit boundary from nextAddress" come to w > n. -/
def Obligations.EraseDecisionIsForwardJump : Prop :=
  (∀ (e : Nat) (w : Word) (nextAddr : Option Word), 0 < e →
    (eraseNeeded e w nextAddr = true ↔
      w.toNat % e = 0 ∧ (nextAddr = none ∨ ∃ n, nextAddr = some n ∧ n.toNat < w.toNat))) ∧
  (∀ (e : Nat) (w n : Word), 0 < e → w.toNat % e = 0 →
    ((w ≠ n ∧ nextBoundary e n.toNat ≤ w.toNat) ↔ n.toNat < w.toNat) ∧
    ((w ≠ n ∧ (n.toNat / e + 1) * e ≤ w.toNat) ↔ n.toNat < w.toNat))

/-- R132-R134: a record at or before `nextAddr`, an unaligned record, and a record of the unit `u` once `nextAddr` lies
beyond the base of that unit, erase nothing. -/
def Obligations.NoEraseWithoutForwardJump : Prop :=
  ∀ (e : Nat) (w n : Word), 0 < e →
    (w.toNat ≤ n.toNat → eraseNeeded e w (some n) = false) ∧
    (w.toNat % e ≠ 0 → eraseNeeded e w (some n) = false ∧ eraseNeeded e w none = false) ∧
    (∀ u, u % e = 0 → u ≤ w.toNat → w.toNat < u + e → u < n.toNat → eraseNeeded e w (some n) = false)

/-- Frame of the RECORD_TT operations: only the sequencer may change, and, for DATA, its latched addresses and path, and,
for EXTADDR, `ext`; every byte of flash reads as before. -/
def Obligations.RecordOperationsFrame : Prop :=
  ∀ (i : Instr) (s t : State), i.format = .recordTT → exec i s = .next t →
    (∃ x p l w wl e, t = { s with st := x, ph := 0, path := p, lin := l, w := w, wl := wl, ext := e } ∧
      ((∀ f, i ≠ .data f) → p = s.path ∧ l = s.lin ∧ w = s.w ∧ wl = s.wl) ∧
      ((∀ ra hi lo cs, i ≠ .extaddr ra hi lo cs) → e = s.ext)) ∧
    (∀ j, t.flash.read j = s.flash.read j)

/-! ### Fetch -/

/-- When the pair matches (or in single mode), a step in VALIDATE is the operation the line in buffer 0 decodes to
(R87, R88, R95). -/
def Obligations.StepRunsTheDecodedLine : Prop :=
  ∀ (s : State) (i : Instr), s.running → s.st = .validate →
    (s.cfg.redundant = true → content s.line0 = content s.line1) → decode .lineC0 s.line0 = .ok i →
    step s = exec i s

/-- A step in DISPATCH is the operation the record in the latch selects (R107); in every state of the invariant that is
the operation the line in buffer 0 decodes to (R78). -/
def Obligations.StepRunsTheDecodedRecord : Prop :=
  (∀ (s : State) (i : Instr), s.running → s.st = .dispatch → ofRecord s.latch = .ok i → step s = exec i s) ∧
  (∀ (s : State) (i : Instr), Inv s → s.rst = false → s.st = .dispatch → decode .recordTT s.line0 = .ok i →
    step s = exec i s)

/-! ### Receiving and answering -/

/-- R80-R84: one received byte. It is stored at `len[sel]`; a CR or the last free place completes the line; then a first
line of a pair selects buffer 1, and any other line is followed by XOFF (phase 1). -/
def Obligations.ReceiveStoresTheByte : Prop :=
  ∀ (s : State) (b : Byte) (rest : List Byte),
    s.running → s.st = .await → s.ph = 0 → s.rx = b :: rest →
    (s.sel = false →
      let t : State :=
        { s with buf0 := s.buf0.set s.len0 b, len0 := s.len0 + 1, rx := rest, trace := .rx b :: s.trace }
      (b ≠ 0x0D#8 ∧ s.len0 + 1 ≠ s.cfg.lineCap → step s = .next t) ∧
      (b = 0x0D#8 ∨ s.len0 + 1 = s.cfg.lineCap → s.cfg.redundant = true → step s = .next { t with sel := true }) ∧
      (b = 0x0D#8 ∨ s.len0 + 1 = s.cfg.lineCap → s.cfg.redundant = false → step s = .next { t with ph := 1 })) ∧
    (s.sel = true →
      let t : State :=
        { s with buf1 := s.buf1.set s.len1 b, len1 := s.len1 + 1, rx := rest, trace := .rx b :: s.trace }
      (b ≠ 0x0D#8 ∧ s.len1 + 1 ≠ s.cfg.lineCap → step s = .next t) ∧
      (b = 0x0D#8 ∨ s.len1 + 1 = s.cfg.lineCap → step s = .next { t with ph := 1 }))

/-- R83, R84: once the unit is complete, XOFF is sent and VALIDATE is entered. -/
def Obligations.XoffFollowsTheUnit : Prop :=
  ∀ s : State, s.running → s.st = .await → s.ph = 1 → s.txReady = true →
    step s = .next { s with st := .validate, ph := 0, trace := .tx 0x13#8 :: s.trace }

/-- R87: in redundant mode, two lines whose contents differ are rejected with PAIR_MISMATCH. -/
def Obligations.PairMismatchIsRejected : Prop :=
  ∀ s : State, s.running → s.st = .validate → s.cfg.redundant = true → content s.line0 ≠ content s.line1 →
    step s = .next { s with verdict := .pairMismatch, ackOk := false, st := .acknowledge, ph := 0 }

/-- R89: ACK (only if `ackOk`), then XON; the lines are emptied and AWAIT is entered. -/
def Obligations.AcknowledgeSendsAckThenXon : Prop :=
  ∀ s : State, s.running → s.st = .acknowledge → s.ph = 0 → s.txReady = true →
    (s.ackOk = true →
      runSteps 2 s =
        .next { s with st := .await, ph := 0, len0 := 0, len1 := 0, sel := false,
                       trace := .tx 0x11#8 :: .tx 0x06#8 :: s.trace }) ∧
    (s.ackOk = false →
      step s =
        .next { s with st := .await, ph := 0, len0 := 0, len1 := 0, sel := false, trace := .tx 0x11#8 :: s.trace })

/-- R111: RESETTING sends ACK, XON, ACK and, if configured, XON, and then asserts RSTREQ; after that, however many steps
follow, nothing more happens. That the port transactions stand in `trace`, and that a block that takes no step stutters, is
the model's form (log entries 9 and 4); that DeviceReset() is complete when RSTREQ is asserted, is the model's choice (log
entry 21). -/
def Obligations.EndOfSessionSequence : Prop :=
  ∀ (s : State) (k : Nat), s.running → s.st = .resetting → s.ph = 0 → s.txReady = true →
    (s.cfg.eofFinalXon = false →
      runSteps (4 + k) s =
        .next { s with ph := 4, trace := .rstreq :: .tx 0x06#8 :: .tx 0x11#8 :: .tx 0x06#8 :: s.trace }) ∧
    (s.cfg.eofFinalXon = true →
      runSteps (5 + k) s =
        .next { s with ph := 5, trace := .rstreq :: .tx 0x11#8 :: .tx 0x06#8 :: .tx 0x11#8 :: .tx 0x06#8 :: s.trace })

/-- R114: once RSTREQ is on the port as the last event of the sequence, the block takes no step of its own: it asserts no
`rx_ready`, offers no byte and no command, and nothing changes. That the model's step then answers the same state is its
form of taking no step (log entry 4). -/
def Obligations.NothingAfterDeviceReset : Prop :=
  ∀ s : State, s.running → s.st = .resetting → (if s.cfg.eofFinalXon then 5 else 4) ≤ s.ph →
    step s = .next s ∧ s.rxReady = false ∧ s.txData = none ∧ s.flRequest = none

/-! ### Flash -/

/-- R127: ERASE on the normal path issues FlashErase(w) and enters WRITE; of the flash, exactly the unit of E words at
`w` is blank afterwards (reference flash, R58; 0xFF as in log entry 7). That a device the spec does not describe leaves the field `flash` as it is, is the model's choice: it
says nothing of that device's contents (log entry 8). -/
def Obligations.NormalEraseErasesOneUnit : Prop :=
  ∀ s : State, s.running → s.st = .erase → s.path = .normal → s.flDone = true →
    s.w.toNat % s.cfg.eraseWords.toNat = 0 →
    ∃ m, step s = .next { s with flash := m, st := .write, ph := 0, trace := .flErase s.w :: s.trace } ∧
      (s.device = .unspecified → m = s.flash) ∧
      (s.device = .reference → ∀ j,
        m.read j =
          if 2 * s.w.toNat ≤ j ∧ j < 2 * (s.w.toNat + s.cfg.eraseWords.toNat) then 0xFF#8 else s.flash.read j)

/-- R129, R130: WRITE on the normal path issues FlashWrite(w, rd, rc), sets `nextAddr` to SOME(wl + 1) and enters
ACKNOWLEDGE; of the flash, exactly the rc bytes from 2·w on change (reference flash, R58). That a device the spec does not describe leaves the field `flash` as it is, is the model's choice: it
says nothing of that device's contents (log entry 8). -/
def Obligations.NormalWriteStoresThePayload : Prop :=
  ∀ s : State, s.running → s.st = .write → s.path = .normal → s.flDone = true → s.flash.wf = true →
    s.latch.rd.length = s.latch.rc.toNat →
    ∃ m, step s =
        .next { s with flash := m, nextAddr := some (s.wl + 1#32), st := .acknowledge, ph := 0,
                       trace := .flWrite s.w s.latch.rd s.latch.rc.toNat :: s.trace } ∧
      (s.device = .unspecified → m = s.flash) ∧
      (s.device = .reference →
        (∀ i, i < s.latch.rc.toNat → m.read (2 * s.w.toNat + i) = s.latch.rd.getD i 0#8) ∧
        (∀ j, j < 2 * s.w.toNat ∨ 2 * s.w.toNat + s.latch.rc.toNat ≤ j → m.read j = s.flash.read j))

/-- R128: the read-modify-write issues FlashRead(S, 2E), FlashErase(S) and FlashWrite(S, scratch, 2E) in this order and
sets `nextAddr` to SOME(wl + 1); on any device the buffer it writes carries the payload at the record's words and what the
device answered at the others. On the reference flash its effect is the payload at those words, and every other byte, of
the unit and outside it, is what it was. That the merge is a step of its own, four in all, is the model's reading (log entry
1); the reference flash is R58's, blank as 0xFF (log entry 7), and any other device's answer is free (log entry 8). -/
def Obligations.ReadModifyWriteKeepsTheRemainder : Prop :=
  ∀ (s : State) (u : Word), Inv s → s.rst = false → s.st = .erase → s.ph = 0 → s.path = .rmw →
    s.cfg.sharedUnit = some u → s.flDone = true →
    ∃ (m : Memory) (sc : List Byte) (fr : Nat),
      runSteps 4 s =
        .next { s with flash := m, scratch := sc, free := fr, nextAddr := some (s.wl + 1#32), st := .acknowledge, ph := 0,
                       trace := .flWrite u sc (2 * s.cfg.eraseWords.toNat) :: .flErase u ::
                         .flRead u (2 * s.cfg.eraseWords.toNat) :: s.trace } ∧
      sc.length = 2 * s.cfg.eraseWords.toNat ∧
      (∀ i, i < s.latch.rc.toNat → sc.getD (2 * (s.w.toNat - u.toNat) + i) 0#8 = s.latch.rd.getD i 0#8) ∧
      (∀ k, k < 2 * (s.w.toNat - u.toNat) ∨ 2 * (s.w.toNat - u.toNat) + s.latch.rc.toNat ≤ k →
        sc.getD k 0#8 = (s.flashAnswer u (2 * s.cfg.eraseWords.toNat)).getD k 0#8) ∧
      (s.device = .unspecified → m = s.flash) ∧
      (s.device = .reference → fr = s.free ∧
        (∀ i, i < s.latch.rc.toNat → m.read (2 * s.w.toNat + i) = s.latch.rd.getD i 0#8) ∧
        (∀ j, j < 2 * s.w.toNat ∨ 2 * s.w.toNat + s.latch.rc.toNat ≤ j → m.read j = s.flash.read j))

/-- R54, R122: with P_SHARED_UNIT at its default (R9), every flash command a step issues respects the loader region: it
is on the shared unit, or its words (for an erase, its whole unit's) are outside the region. -/
def Obligations.FlashCommandsRespectTheLoader : Prop :=
  ∀ (s t : State) (e : Event), Inv s → s.cfg.sharedUnit = defaultSharedUnit s.cfg.eraseWords s.cfg.lrStart →
    step s = .next t → t.trace = e :: s.trace → flashSafe s.cfg e

/-- R106, R116, R122, R123: a flash command is issued only for a valid DATA record with a payload, whose words do not meet
the loader region; and with E = W no erase is issued. -/
def Obligations.FlashCommandsOnlyForUnprotectedData : Prop :=
  ∀ (s t : State) (e : Event), Inv s → step s = .next t → t.trace = e :: s.trace → e ∈ flCommands [e] →
    s.line0.head? = some 0x3A#8 ∧ parse (content s.line0) = .ok s.latch ∧ s.latch.rt = 0x00#8 ∧ s.latch.rc ≠ 0#8 ∧
    s.w.toNat = (s.ext.toNat * 65536 + s.latch.ra.toNat) / 2 ∧
    s.wl.toNat = (s.ext.toNat * 65536 + s.latch.ra.toNat + s.latch.rc.toNat - 1) / 2 ∧
    (s.cfg.lrEnd.toNat < s.w.toNat ∨ s.wl.toNat < s.cfg.lrStart.toNat) ∧
    (∀ a, e = .flErase a → s.cfg.eraseWords ≠ s.cfg.writeWords)

/-- R9: the default of P_SHARED_UNIT: the unit that holds the region's first word, if that word is not a unit base; it is
a multiple of E, and the region's first word lies in it. -/
def Obligations.DefaultSharedUnitHoldsTheFirstWord : Prop :=
  ∀ eraseWords lrStart : Word, eraseWords ≠ 0#32 →
    (lrStart.toNat % eraseWords.toNat = 0 → defaultSharedUnit eraseWords lrStart = none) ∧
    (lrStart.toNat % eraseWords.toNat ≠ 0 → ∃ a, defaultSharedUnit eraseWords lrStart = some a ∧
      a.toNat = lrStart.toNat - lrStart.toNat % eraseWords.toNat ∧ a.toNat % eraseWords.toNat = 0 ∧
      a.toNat < lrStart.toNat ∧ lrStart.toNat < a.toNat + eraseWords.toNat)

/-! ### Waiting, reset, refusal -/

/-- R39-R41, R148: a transaction that its collaborator does not complete leaves the block waiting: AWAIT with no byte,
a byte to send with TX not ready, a command with the device not done. That waiting is a step that answers the same state is
the model's choice (log entries 4 and 5). -/
def Obligations.BlockedTransactionsWait : Prop :=
  ∀ s : State, s.running →
    (s.st = .await → s.ph = 0 → s.rx = [] → step s = .next s) ∧
    (s.txData ≠ none → s.txReady = false → step s = .next s) ∧
    (s.flRequest ≠ none → s.flDone = false → step s = .next s)

/-- R43, R150: RST, in any state, puts every dynamic state of the block to its reset value, the configuration and the
flash staying as they are. That the bytes at RX stay is the model's choice (log entry 6). -/
def Obligations.RstResetsFromAnyState : Prop :=
  ∀ s : State, configLegal s.cfg = true → s.rst = true →
    ∃ t, step s = .next t ∧ t.st = .await ∧ t.ph = 0 ∧ t.sel = false ∧ t.len0 = 0 ∧ t.len1 = 0 ∧ t.ext = 0#16 ∧
      t.nextAddr = none ∧ t.cfg = s.cfg ∧ t.rst = false ∧ t.rx = s.rx ∧ t.trace = .rst :: s.trace ∧
      (∀ j, t.flash.read j = s.flash.read j)

/-- R36, R151, R152, R156: what reset leaves, under any configuration, with any flash device and any initial flash image:
AWAIT, empty lines, ext 0, nextAddr NONE, nothing sent, the block ready to receive, the image as it was given, and both
collaborators answering. The other registers' values are the model's (log entry 3) and not stated here. -/
def Obligations.ResetValues : Prop :=
  ∀ (c : Config) (d : Device) (image : Memory),
    let s := State.resetWith c d image
    s.st.code = 0 ∧ s.ph = 0 ∧ s.sel = false ∧ s.len0 = 0 ∧ s.len1 = 0 ∧ s.ext = 0#16 ∧ s.nextAddr = none ∧
    s.cfg = c ∧ s.trace = [] ∧ s.rxReady = true ∧ s.txData = none ∧ s.flRequest = none ∧
    s.device = d ∧ s.flash = image ∧ s.txReady = true ∧ s.flDone = true

/-- R22: the value 7 of `st` is stuck. -/
def Obligations.StateSevenIsStuck : Prop :=
  ∀ s : State, s.running → s.st.code = 7 → step s = .fault .stuckState

/-- R33, U6: a configuration that breaks a constraint of R7-R11 is refused, and only such a one. That a step of the model
checks it is the model's choice (log entry 13). -/
def Obligations.IllegalConfigurationIsRefused : Prop :=
  ∀ s : State,
    let c := s.cfg
    step s = .refused .illegalConfiguration ↔
      ¬(1 ≤ c.writeWords.toNat ∧ c.writeWords.toNat ≤ c.eraseWords.toNat ∧
        c.eraseWords.toNat % c.writeWords.toNat = 0 ∧ c.lrStart.toNat ≤ c.lrEnd.toNat ∧
        (∀ a, c.sharedUnit = some a → a.toNat % c.eraseWords.toNat = 0) ∧ 1 ≤ c.lineCap)

/-- R22, R137: the encodings of `st` and of `verdict`, each a one-to-one map onto the eight values of its three bits. -/
def Obligations.CodesOfStatesAndVerdicts : Prop :=
  ([St.await, .validate, .dispatch, .erase, .write, .acknowledge, .resetting].map St.code = [0, 1, 2, 3, 4, 5, 6]) ∧
  ([Verdict.okRecord, .okNonrecord, .pairMismatch, .badLength, .badChar, .badChecksum, .badExtlen].map Verdict.code =
    [0, 1, 2, 3, 4, 5, 6]) ∧
  (∀ x, St.ofCode x.code = x) ∧ (∀ c, (St.ofCode c).code = c) ∧
  (∀ v, Verdict.ofCode v.code = v) ∧ (∀ c, (Verdict.ofCode c).code = c)

/-! ### Rules about every step -/

/-- R23: the state register follows the transition table, and RESETTING is entered only from DISPATCH of a record of
type 0x01 (and never left without RST). -/
def Obligations.TransitionTable : Prop :=
  ∀ s t : State, s.running → step s = .next t →
    t.st = s.st ∨
    (s.st = .await ∧ t.st = .validate) ∨
    (s.st = .validate ∧ t.st = .acknowledge) ∨
    (s.st = .validate ∧ t.st = .dispatch ∧ t.verdict = .okRecord ∧ t.ackOk = true) ∨
    (s.st = .dispatch ∧ t.st = .resetting ∧ s.latch.rt = 0x01#8) ∨
    (s.st = .dispatch ∧ t.st = .acknowledge ∧ s.latch.rt ≠ 0x01#8 ∧ t.ackOk = s.ackOk) ∨
    (s.st = .dispatch ∧ (t.st = .erase ∨ t.st = .write) ∧ s.latch.rt = 0x00#8) ∨
    (s.st = .erase ∧ t.st = .write) ∨
    (s.st = .write ∧ t.st = .acknowledge ∧ t.ackOk = s.ackOk) ∨
    (s.st = .acknowledge ∧ t.st = .await)

/-- R131: `nextAddr` changes only when a WRITE completes, and then to SOME(wl + 1). -/
def Obligations.NextAddrIsWrittenOnlyByWrite : Prop :=
  ∀ s t : State, s.running → step s = .next t →
    t.nextAddr = s.nextAddr ∨
    (s.st = .write ∧ s.flDone = true ∧ t.st = .acknowledge ∧ t.nextAddr = some (s.wl + 1#32))

/-- R26: `ext` changes only in DISPATCH of a record of type 0x04, and then to its payload. -/
def Obligations.ExtIsWrittenOnlyByExtaddr : Prop :=
  ∀ s t : State, s.running → step s = .next t →
    t.ext = s.ext ∨
    (s.st = .dispatch ∧ s.latch.rt = 0x04#8 ∧
      ∃ hi lo, s.latch.rd = [hi, lo] ∧ t.ext.toNat = 256 * hi.toNat + lo.toNat)

/-- R33: no step changes the configuration, a reset included. The configuration is a field of State (log entry 2). -/
def Obligations.ConfigurationNeverChanges : Prop :=
  ∀ s t : State, step s = .next t → t.cfg = s.cfg

/-- R39, R44: a step receives a byte exactly when `rx_ready` and `rx_valid` are asserted; it then takes the first byte,
once, and no other step takes one; `rx_ready` is asserted only in AWAIT. `rx` and `trace` are the model's (log entries 4, 9). -/
def Obligations.RxHandshake : Prop :=
  ∀ s t : State, s.running → step s = .next t →
    (s.rxReady = true → s.st = .await) ∧
    ((s.rxReady = true ∧ s.rxValid = true ∧ ∃ b rest, s.rx = b :: rest ∧ t.rx = rest ∧ t.trace = .rx b :: s.trace) ∨
    (¬(s.rxReady = true ∧ s.rxValid = true) ∧ t.rx = s.rx ∧ ∀ b, t.trace ≠ .rx b :: s.trace))

/-- R40, R44: a step sends a byte exactly when it offers one and `tx_ready` is asserted; it is XOFF, XON or ACK. The
input `tx_ready` is a field (log entry 5). -/
def Obligations.TxHandshake : Prop :=
  ∀ s t : State, s.running → step s = .next t →
    (∀ b, s.txData = some b → s.txReady = true → t.trace = .tx b :: s.trace) ∧
    (∀ b, t.trace = .tx b :: s.trace → s.txData = some b ∧ s.txReady = true ∧ (b = 0x13#8 ∨ b = 0x11#8 ∨ b = 0x06#8))

/-- R41, R44: a step completes a flash command exactly when it requests one and the device is done. The input `done` is a field
(log entry 5). -/
def Obligations.FlHandshake : Prop :=
  ∀ s t : State, s.running → step s = .next t →
    (∀ e, s.flRequest = some e → s.flDone = true → t.trace = e :: s.trace) ∧
    (∀ e, (t.trace = e :: s.trace ∧ e ∈ flCommands [e]) → s.flRequest = some e ∧ s.flDone = true)

/-- R44: a step is at most one port transaction, and a step that touches no port leaves the collaborators' side alone.
The transactions are those of `trace` (log entry 9). -/
def Obligations.OneTransactionAStep : Prop :=
  ∀ s t : State, step s = .next t →
    (t.trace = s.trace ∧ t.rx = s.rx ∧ t.flash = s.flash) ∨ ∃ e, t.trace = e :: s.trace

/-! ### Invariants -/

/-- The invariant and the gate hold after reset, under every legal configuration, with any flash device and every initial
flash image in the canonical form (R156, log entry 7). -/
def Obligations.InvariantsHoldAtReset : Prop :=
  ∀ (c : Config) (d : Device) (image : Memory), configLegal c = true → image.wf = true →
    Inv (State.resetWith c d image) ∧ GateInv (State.resetWith c d image)

/-- R37: every step keeps the invariant: the registers' sizes, the line buffers' form, the latch being the valid record
of the received line in DISPATCH, ERASE, WRITE and RESETTING, no unprotected write pending, the flash's canonical form. -/
def Obligations.StepKeepsTheInvariant : Prop :=
  ∀ s t : State, Inv s → step s = .next t → Inv t

/-- R56, R85: every step keeps the flow-control gate: bytes are received only while the sender may send, flash commands
are issued only between XOFF and XON. -/
def Obligations.StepKeepsTheGate : Prop :=
  ∀ s t : State, Inv s → GateInv s → step s = .next t → GateInv t

/-- From a state of the invariant the block never stops on a fault of the model: a step answers a next state, or refuses
the shared-unit straddle. The faults are the model's own (log entry 12). -/
def Obligations.InvariantStatesNeverFault : Prop :=
  ∀ s : State, Inv s →
    (∃ t, step s = .next t) ∨ (step s = .refused .sharedStraddle ∧ s.st = .dispatch ∧ s.latch.rt = 0x00#8)

/-! ### Whole units of transfer -/

/-- R63, R80-R84: a line of bytes ending in its first CR, or cut at P_LINE_CAP bytes, is received whole: in single mode its
bytes stand in buffer 0 in order, XOFF follows and VALIDATE is entered. In redundant mode two such lines are received, the
first in buffer 0 and the second in buffer 1, and one XOFF follows the second. The bytes after the unit are still at RX. -/
def Obligations.ReceivedLineReachesValidate : Prop :=
  ∀ (s : State) (first second rest : List Byte), Inv s → s.rst = false → s.st = .await → s.ph = 0 → s.len0 = 0 →
    s.txReady = true → lineWhole s.cfg.lineCap first → first.length ≤ s.cfg.lineCap →
    (s.cfg.redundant = false → s.rx = first ++ rest →
      ∃ t : State, runSteps (first.length + 1) s = .next t ∧ t.st = .validate ∧ t.ph = 0 ∧ t.line0 = first ∧
        t.rx = rest ∧ t.trace = .tx 0x13#8 :: ((first.map Event.rx).reverse ++ s.trace) ∧ t.ext = s.ext ∧
        t.nextAddr = s.nextAddr ∧ t.flash = s.flash ∧ t.cfg = s.cfg) ∧
    (s.cfg.redundant = true → s.rx = first ++ second ++ rest → lineWhole s.cfg.lineCap second →
      second.length ≤ s.cfg.lineCap →
      ∃ t : State, runSteps (first.length + second.length + 1) s = .next t ∧ t.st = .validate ∧ t.ph = 0 ∧
        t.line0 = first ∧ t.line1 = second ∧ t.rx = rest ∧
        t.trace = .tx 0x13#8 :: (((first ++ second).map Event.rx).reverse ++ s.trace) ∧ t.ext = s.ext ∧
        t.nextAddr = s.nextAddr ∧ t.flash = s.flash ∧ t.cfg = s.cfg)

/-- R90, R106: a unit that is rejected (a pair mismatch, or a record line that fails a check) is answered with XON alone;
no flash command is issued, and `ext`, `nextAddr` and the flash stay as they are. -/
def Obligations.RejectedUnitGetsXonAlone : Prop :=
  ∀ s : State, s.running → s.st = .validate → s.txReady = true →
    ((s.cfg.redundant = true ∧ content s.line0 ≠ content s.line1) ∨
      (s.line0.head? = some 0x3A#8 ∧ ∃ e, parse (content s.line0) = .error e)) →
    ∃ t : State, runSteps 2 s = .next t ∧ t.st = .await ∧ t.ackOk = false ∧
      t.trace = .tx 0x11#8 :: s.trace ∧ t.ext = s.ext ∧ t.nextAddr = s.nextAddr ∧ t.flash = s.flash ∧
      t.len0 = 0 ∧ t.len1 = 0 ∧ t.sel = false

/-- R91: a unit that is not rejected and not EOF is completed in at most eight steps when the collaborators answer, unless
its record straddles the shared unit and is refused (R124): flash commands only (none unless the record is DATA), then
ACK, then XON, and AWAIT again. -/
def Obligations.AcceptedUnitGetsAckThenXon : Prop :=
  ∀ s : State, Inv s → s.rst = false → s.st = .validate → s.txReady = true → s.flDone = true →
    s.pairDiffers = false →
    (∀ r, s.line0.head? = some 0x3A#8 → parse (content s.line0) = .ok r → r.rt ≠ 0x01#8) →
    (s.line0.head? = some 0x3A#8 → ∃ r, parse (content s.line0) = .ok r) →
    (∃ n t, n ≤ 8 ∧ runSteps n s = .next t ∧ t.st = .await ∧
      ∃ fl, t.trace = .tx 0x11#8 :: .tx 0x06#8 :: (fl ++ s.trace) ∧ flCommands fl = fl.reverse ∧
        ((∀ r, s.line0.head? = some 0x3A#8 → parse (content s.line0) = .ok r → r.rt ≠ 0x00#8) → fl = [])) ∨
    (∃ t, step s = .next t ∧ step t = .refused .sharedStraddle)
end

