-- ==== Sys2Proof/Laws/Decode.lean ====
section
/-! SUPPORT. The small lemmas of the hex characters, of lines and of the encoder. -/

namespace Sys2Proof

@[simp] theorem hexval_hexDigit (v : BitVec 4) : hexval (hexDigit v) = some v := by
  revert v; decide

/-- Two digits of a byte decode to the byte (30_encoding.md R66, R76). -/
theorem hexbyte_hexDigits (b : Byte) : hexbyte (hexDigit (b.extractLsb' 4 4)) (hexDigit (b.extractLsb' 0 4)) = some b := by
  revert b; decide

@[simp] theorem hex2_length (b : Byte) : (hex2 b).length = 2 := rfl

@[simp] theorem hexText_length (bs : List Byte) : (hexText bs).length = 2 * bs.length := by
  induction bs with
  | nil => rfl
  | cons b bs ih => simp [hexText, ih]; omega

theorem hexText_append (as bs : List Byte) : hexText (as ++ bs) = hexText as ++ hexText bs := by
  induction as with
  | nil => rfl
  | cons a as ih => simp [hexText, ih]

/-- Hex text decodes to its bytes. -/
@[simp] theorem hexBytes_hexText (bs : List Byte) : hexBytes (hexText bs) = some bs := by
  induction bs with
  | nil => rfl
  | cons b bs ih =>
    change hexBytes (hexDigit _ :: hexDigit _ :: hexText bs) = _
    rw [hexBytes, hexbyte_hexDigits, ih]

/-- An uppercase hex digit is the digit of its value: the decode loses nothing (R65). -/
theorem hexDigit_of_hexval (c : Byte) (v : BitVec 4) (h : hexval c = some v) : hexDigit v = c := by
  revert c v; decide

/-- The digits of a byte made of two nibbles are the digits of the nibbles (R66). -/
theorem hex2_of_nibbles (h l : BitVec 4) :
    hex2 (h.setWidth 8 <<< 4 ||| l.setWidth 8) = [hexDigit h, hexDigit l] := by
  revert h l; decide

/-- The two characters of a hex pair are the digits of its byte. -/
theorem hex2_of_hexbyte (c d b : Byte) (h : hexbyte c d = some b) : hex2 b = [c, d] := by
  unfold hexbyte at h
  split at h
  · rename_i vh vl hh hl
    rw [Option.some.injEq] at h
    subst h
    rw [← hexDigit_of_hexval c vh hh, ← hexDigit_of_hexval d vl hl]
    exact hex2_of_nibbles vh vl
  · cases h

/-- Characters that decode to `bs` are the hex text of `bs`. -/
theorem hexText_of_hexBytes (cs bs : List Byte) (h : hexBytes cs = some bs) : hexText bs = cs := by
  induction cs using hexBytes.induct generalizing bs with
  | case1 => cases h; rfl
  | case2 => cases h
  | case3 cHi cLo cs b bs' hbs hb ih =>
    rw [hexBytes, hb, hbs] at h
    cases h
    rw [hexText, hex2_of_hexbyte _ _ _ hb, ih _ hbs]; rfl
  | case4 cHi cLo cs hne =>
    rw [hexBytes] at h
    split at h
    · exact absurd ‹_› (hne _ _ ‹_›)
    · cases h

/-- The content of a line that ends in CR is what stands before the CR (R63). -/
@[simp] theorem content_append_cr (l : List Byte) : content (l ++ [Byte.cr]) = l := by
  simp [content]

@[simp] theorem content_cons_append_cr (c : Byte) (l : List Byte) : content (c :: (l ++ [Byte.cr])) = c :: l := by
  rw [← List.cons_append, content_append_cr]

/-- A line without a final CR is its own content (R63). -/
theorem content_of_no_cr (l : List Byte) (h : l.getLast? ≠ some Byte.cr) : content l = l := by
  simp [content, h]

theorem byteSum_append (as bs : List Byte) : byteSum (as ++ bs) = byteSum as + byteSum bs := by
  induction as with
  | nil => simp [byteSum]
  | cons a as ih => simp [byteSum, ih, BitVec.add_assoc]

/-- The sum modulo 256 is the sum of the bytes, modulo 256 (41_record_validate.md R102). -/
theorem byteSum_toNat (bs : List Byte) : (byteSum bs).toNat = (bs.map BitVec.toNat).sum % 256 := by
  induction bs with
  | nil => rfl
  | cons b bs ih => simp [byteSum, ih]

/-- The checksum that goes with a body passes the check (R76, R102). -/
@[simp] theorem byteSum_checksumOf (body : List Byte) : byteSum body + checksumOf body = 0#8 := by
  simp [checksumOf]

theorem checksumOk_iff (r : Record) : r.checksumOk = true ↔ r.cs = checksumOf r.body := by
  simp only [Record.checksumOk, beq_iff_eq, checksumOf]
  constructor
  · intro h; exact eq_neg_of_add_eq_zero_right h
  · intro h; rw [h]; simp

/-- The two bytes of the address field make it again (R69). -/
theorem half_of_bytes (a : Half) :
    (a.extractLsb' 8 8).setWidth 16 <<< 8 ||| (a.extractLsb' 0 8).setWidth 16 = a := by
  apply BitVec.eq_of_getLsbD_eq
  intro i hi
  simp only [BitVec.getLsbD_or, BitVec.getLsbD_shiftLeft, BitVec.getLsbD_setWidth, BitVec.getLsbD_extractLsb']
  by_cases h : i < 8
  · simp [h, hi]
  · simp [h, hi, show 8 + (i - 8) = i by omega, show i - 8 < 16 by omega, show i - 8 < 8 by omega]

end Sys2Proof
end

