-- ==== Sys2Proof/Laws/Memory.lean ====
section
/-! SUPPORT. What the operations of the reference flash do (20_memory.md R58): each is said once, by what a read gives
afterwards, and each keeps the canonical form. -/

namespace Sys2Proof.Machine.Memory

@[simp] theorem read_nil (j : Nat) : read [] j = blank := rfl

theorem read_cons (k : Nat) (v : Byte) (m : Memory) (j : Nat) :
    read ((k, v) :: m) j = if j = k then v else read m j := rfl

theorem wfFrom_cons (lo : Option Nat) (k : Nat) (v : Byte) (m : Memory) :
    wfFrom lo ((k, v) :: m) = true ↔ (∀ l, lo = some l → l < k) ∧ v ≠ blank ∧ wfFrom (some k) m = true := by
  cases lo <;> simp [wfFrom, and_assoc]

/-- Below the first cell every index reads as blank. -/
theorem read_below (m : Memory) (l j : Nat) (h : wfFrom (some l) m = true) (hj : j ≤ l) : read m j = blank := by
  induction m generalizing l with
  | nil => rfl
  | cons c m ih =>
    obtain ⟨k, v⟩ := c
    obtain ⟨hk, -, hm⟩ := (wfFrom_cons _ _ _ _).1 h
    have := hk l rfl
    rw [read_cons, if_neg (by omega)]
    exact ih k hm (by omega)

theorem wfFrom_mono (m : Memory) (l k : Nat) (h : wfFrom (some k) m = true) (hl : l ≤ k) : wfFrom (some l) m = true := by
  cases m with
  | nil => rfl
  | cons c m =>
    obtain ⟨hk, hv, hm⟩ := (wfFrom_cons _ _ _ _).1 h
    exact (wfFrom_cons _ _ _ _).2 ⟨fun a ha => by cases ha; have := hk k rfl; omega, hv, hm⟩

theorem wfFrom_none (m : Memory) (l : Nat) (h : wfFrom (some l) m = true) : wfFrom none m = true := by
  cases m with
  | nil => rfl
  | cons c m =>
    obtain ⟨-, hv, hm⟩ := (wfFrom_cons _ _ _ _).1 h
    exact (wfFrom_cons _ _ _ _).2 ⟨by simp, hv, hm⟩

theorem write_wfFrom (m : Memory) (lo : Option Nat) (j : Nat) (v : Byte) (h : wfFrom lo m = true)
    (hj : ∀ l, lo = some l → l < j) : wfFrom lo (write m j v) = true := by
  induction m generalizing lo with
  | nil =>
    unfold write
    split
    · rfl
    · exact (wfFrom_cons _ _ _ _).2 ⟨hj, ‹_›, rfl⟩
  | cons c m ih =>
    obtain ⟨k, u⟩ := c
    obtain ⟨hk, hu, hm⟩ := (wfFrom_cons _ _ _ _).1 h
    unfold write
    split
    · rename_i hjk
      split
      · exact h
      · exact (wfFrom_cons _ _ _ _).2 ⟨hj, ‹_›, (wfFrom_cons _ _ _ _).2 ⟨fun l hl => by cases hl; exact hjk, hu, hm⟩⟩
    · split
      · rename_i hjk
        subst hjk
        split
        · cases lo with
          | none => exact wfFrom_none _ _ hm
          | some l => exact wfFrom_mono _ _ _ hm (Nat.le_of_lt (hk l rfl))
        · exact (wfFrom_cons _ _ _ _).2 ⟨hk, ‹_›, hm⟩
      · exact (wfFrom_cons _ _ _ _).2 ⟨hk, hu, ih _ hm fun l hl => by cases hl; omega⟩

/-- A write keeps the canonical form. -/
theorem write_wf (m : Memory) (j : Nat) (v : Byte) (h : m.wf = true) : (m.write j v).wf = true :=
  write_wfFrom m none j v h (by simp)

theorem read_write_from (m : Memory) (lo : Option Nat) (j i : Nat) (v : Byte) (h : wfFrom lo m = true) :
    read (write m j v) i = if i = j then v else read m i := by
  induction m generalizing lo with
  | nil =>
    unfold write
    split <;> simp_all [read_cons]
  | cons c m ih =>
    obtain ⟨k, u⟩ := c
    obtain ⟨-, -, hm⟩ := (wfFrom_cons _ _ _ _).1 h
    unfold write
    split
    · rename_i hjk
      split
      · rename_i hv
        by_cases hi : i = j
        · subst hi
          rw [read_cons, if_neg (by omega), if_pos rfl, hv]
          exact read_below m k i hm (by omega)
        · rw [if_neg hi]
      · rw [read_cons]
    · split
      · rename_i hjk
        subst hjk
        split
        · rename_i hv
          by_cases hi : i = j
          · subst hi
            rw [if_pos rfl, hv]
            exact read_below m i i hm (Nat.le_refl _)
          · rw [if_neg hi, read_cons, if_neg hi]
        · by_cases hi : i = j <;> simp [read_cons, hi]
      · rename_i hne
        rw [read_cons, ih _ hm, read_cons]
        by_cases hi : i = k
        · subst hi; rw [if_pos rfl, if_neg (Ne.symm hne), if_pos rfl]
        · rw [if_neg hi, if_neg hi]

/-- A read after a write gives the byte written at its index and what was there at every other index. -/
theorem read_write (m : Memory) (j i : Nat) (v : Byte) (h : m.wf = true) :
    read (write m j v) i = if i = j then v else read m i :=
  read_write_from m none j i v h

/-- Writing several bytes keeps the canonical form. -/
theorem writeBytes_wf (d : List Byte) : ∀ (m : Memory) (j : Nat), m.wf = true → (m.writeBytes j d).wf = true := by
  induction d with
  | nil => intro m j h; exact h
  | cons v vs ih => intro m j h; exact ih _ _ (write_wf m j v h)

/-- A read after writing the bytes `d` from index `j` on. -/
theorem read_writeBytes (d : List Byte) :
    ∀ (m : Memory) (j i : Nat), m.wf = true →
      read (m.writeBytes j d) i = if j ≤ i ∧ i < j + d.length then d.getD (i - j) blank else read m i := by
  induction d with
  | nil => intro m j i _; rw [if_neg (by simp)]; rfl
  | cons v vs ih =>
    intro m j i h
    rw [writeBytes, ih _ _ _ (write_wf m j v h), read_write m j i v h]
    by_cases h1 : j + 1 ≤ i ∧ i < j + 1 + vs.length
    · rw [if_pos h1, if_pos (by simp; omega), show i - j = (i - (j + 1)) + 1 by omega, List.getD_cons_succ]
    · rw [if_neg h1]
      by_cases h2 : i = j
      · subst h2; rw [if_pos rfl, if_pos (by simp)]; simp
      · rw [if_neg h2, if_neg (by simp; omega)]

theorem blankRange_wfFrom (m : Memory) (lo : Option Nat) (a b : Nat) (h : wfFrom lo m = true) :
    wfFrom lo (m.blankRange a b) = true := by
  induction m generalizing lo with
  | nil => rfl
  | cons c m ih =>
    obtain ⟨k, v⟩ := c
    obtain ⟨hk, hv, hm⟩ := (wfFrom_cons _ _ _ _).1 h
    have ih' := ih _ hm
    unfold blankRange at ih' ⊢
    rw [List.filter_cons]
    split
    · exact (wfFrom_cons _ _ _ _).2 ⟨hk, hv, ih'⟩
    · cases lo with
      | none => exact wfFrom_none _ _ ih'
      | some l => exact wfFrom_mono _ _ _ ih' (Nat.le_of_lt (hk l rfl))

/-- Blanking a range keeps the canonical form. -/
theorem blankRange_wf (m : Memory) (a b : Nat) (h : m.wf = true) : (m.blankRange a b).wf = true :=
  blankRange_wfFrom m none a b h

/-- A read after blanking the range `a ≤ i < b`. -/
theorem read_blankRange (m : Memory) (a b i : Nat) :
    read (m.blankRange a b) i = if a ≤ i ∧ i < b then blank else read m i := by
  induction m with
  | nil => simp [blankRange]
  | cons c m ih =>
    obtain ⟨k, v⟩ := c
    unfold blankRange at ih ⊢
    rw [List.filter_cons]
    by_cases hk : k < a ∨ b ≤ k
    · rw [if_pos (by simpa using hk), read_cons, ih, read_cons]
      by_cases hi : i = k
      · subst hi; rw [if_pos rfl, if_neg (by omega), if_pos rfl]
      · rw [if_neg hi, if_neg hi]
    · rw [if_neg (by simpa using hk), ih, read_cons]
      by_cases hr : a ≤ i ∧ i < b
      · rw [if_pos hr, if_pos hr]
      · rw [if_neg hr, if_neg hr, if_neg (by omega)]

/-- Erasing a unit keeps the canonical form. -/
theorem eraseUnit_wf (m : Memory) (e wa : Nat) (h : m.wf = true) : (m.eraseUnit e wa).wf = true :=
  blankRange_wf m _ _ h

/-- A read after erasing the unit of `e` words that holds word `wa`. -/
theorem read_eraseUnit (m : Memory) (e wa i : Nat) :
    read (m.eraseUnit e wa) i =
      if 2 * (wa - wa % e) ≤ i ∧ i < 2 * (wa - wa % e + e) then blank else read m i :=
  read_blankRange m _ _ i

/-- An initial image is in the canonical form. -/
theorem image_wf (j : Nat) (d : List Byte) : (image j d).wf = true := writeBytes_wf d [] j rfl

/-- What an initial image holds. -/
theorem read_image (j i : Nat) (d : List Byte) :
    read (image j d) i = if j ≤ i ∧ i < j + d.length then d.getD (i - j) blank else blank :=
  read_writeBytes d [] j i rfl

@[simp] theorem readBytes_length (m : Memory) (j n : Nat) : (m.readBytes j n).length = n := by
  induction n generalizing j with
  | zero => rfl
  | succ n ih => simp [readBytes, ih]

/-- Reading several bytes gives each byte in its place. -/
theorem readBytes_getD (m : Memory) (n : Nat) (v : Byte) :
    ∀ (j i : Nat), i < n → (m.readBytes j n).getD i v = m.read (j + i) := by
  induction n with
  | zero => intro j i hi; omega
  | succ n ih =>
    intro j i hi
    cases i with
    | zero => rfl
    | succ i => rw [readBytes, List.getD_cons_succ, ih _ _ (by omega)]; congr 1; omega

end Sys2Proof.Machine.Memory
end

