-- ==== Sys2Proof/Laws/State.lean ====
section
/-! SUPPORT. One lemma per field per update of State, true by definition, for simp. -/

namespace Sys2Proof.Machine

variable (s : State)

/-! ### State.goto -/

@[simp] theorem State.goto_st (x : St) : (s.goto x).st = x := rfl
@[simp] theorem State.goto_ph (x : St) : (s.goto x).ph = 0 := rfl
@[simp] theorem State.goto_sel (x : St) : (s.goto x).sel = s.sel := rfl
@[simp] theorem State.goto_buf0 (x : St) : (s.goto x).buf0 = s.buf0 := rfl
@[simp] theorem State.goto_buf1 (x : St) : (s.goto x).buf1 = s.buf1 := rfl
@[simp] theorem State.goto_len0 (x : St) : (s.goto x).len0 = s.len0 := rfl
@[simp] theorem State.goto_len1 (x : St) : (s.goto x).len1 = s.len1 := rfl
@[simp] theorem State.goto_ext (x : St) : (s.goto x).ext = s.ext := rfl
@[simp] theorem State.goto_nextAddr (x : St) : (s.goto x).nextAddr = s.nextAddr := rfl
@[simp] theorem State.goto_latch (x : St) : (s.goto x).latch = s.latch := rfl
@[simp] theorem State.goto_lin (x : St) : (s.goto x).lin = s.lin := rfl
@[simp] theorem State.goto_w (x : St) : (s.goto x).w = s.w := rfl
@[simp] theorem State.goto_wl (x : St) : (s.goto x).wl = s.wl := rfl
@[simp] theorem State.goto_path (x : St) : (s.goto x).path = s.path := rfl
@[simp] theorem State.goto_ackOk (x : St) : (s.goto x).ackOk = s.ackOk := rfl
@[simp] theorem State.goto_verdict (x : St) : (s.goto x).verdict = s.verdict := rfl
@[simp] theorem State.goto_scratch (x : St) : (s.goto x).scratch = s.scratch := rfl
@[simp] theorem State.goto_cfg (x : St) : (s.goto x).cfg = s.cfg := rfl
@[simp] theorem State.goto_rx (x : St) : (s.goto x).rx = s.rx := rfl
@[simp] theorem State.goto_txReady (x : St) : (s.goto x).txReady = s.txReady := rfl
@[simp] theorem State.goto_flDone (x : St) : (s.goto x).flDone = s.flDone := rfl
@[simp] theorem State.goto_rst (x : St) : (s.goto x).rst = s.rst := rfl
@[simp] theorem State.goto_device (x : St) : (s.goto x).device = s.device := rfl
@[simp] theorem State.goto_flash (x : St) : (s.goto x).flash = s.flash := rfl
@[simp] theorem State.goto_free (x : St) : (s.goto x).free = s.free := rfl
@[simp] theorem State.goto_trace (x : St) : (s.goto x).trace = s.trace := rfl

/-! ### State.nextPhase -/

@[simp] theorem State.nextPhase_st : (s.nextPhase).st = s.st := rfl
@[simp] theorem State.nextPhase_ph : (s.nextPhase).ph = s.ph + 1 := rfl
@[simp] theorem State.nextPhase_sel : (s.nextPhase).sel = s.sel := rfl
@[simp] theorem State.nextPhase_buf0 : (s.nextPhase).buf0 = s.buf0 := rfl
@[simp] theorem State.nextPhase_buf1 : (s.nextPhase).buf1 = s.buf1 := rfl
@[simp] theorem State.nextPhase_len0 : (s.nextPhase).len0 = s.len0 := rfl
@[simp] theorem State.nextPhase_len1 : (s.nextPhase).len1 = s.len1 := rfl
@[simp] theorem State.nextPhase_ext : (s.nextPhase).ext = s.ext := rfl
@[simp] theorem State.nextPhase_nextAddr : (s.nextPhase).nextAddr = s.nextAddr := rfl
@[simp] theorem State.nextPhase_latch : (s.nextPhase).latch = s.latch := rfl
@[simp] theorem State.nextPhase_lin : (s.nextPhase).lin = s.lin := rfl
@[simp] theorem State.nextPhase_w : (s.nextPhase).w = s.w := rfl
@[simp] theorem State.nextPhase_wl : (s.nextPhase).wl = s.wl := rfl
@[simp] theorem State.nextPhase_path : (s.nextPhase).path = s.path := rfl
@[simp] theorem State.nextPhase_ackOk : (s.nextPhase).ackOk = s.ackOk := rfl
@[simp] theorem State.nextPhase_verdict : (s.nextPhase).verdict = s.verdict := rfl
@[simp] theorem State.nextPhase_scratch : (s.nextPhase).scratch = s.scratch := rfl
@[simp] theorem State.nextPhase_cfg : (s.nextPhase).cfg = s.cfg := rfl
@[simp] theorem State.nextPhase_rx : (s.nextPhase).rx = s.rx := rfl
@[simp] theorem State.nextPhase_txReady : (s.nextPhase).txReady = s.txReady := rfl
@[simp] theorem State.nextPhase_flDone : (s.nextPhase).flDone = s.flDone := rfl
@[simp] theorem State.nextPhase_rst : (s.nextPhase).rst = s.rst := rfl
@[simp] theorem State.nextPhase_device : (s.nextPhase).device = s.device := rfl
@[simp] theorem State.nextPhase_flash : (s.nextPhase).flash = s.flash := rfl
@[simp] theorem State.nextPhase_free : (s.nextPhase).free = s.free := rfl
@[simp] theorem State.nextPhase_trace : (s.nextPhase).trace = s.trace := rfl

/-! ### State.emit -/

@[simp] theorem State.emit_st (e : Event) : (s.emit e).st = s.st := rfl
@[simp] theorem State.emit_ph (e : Event) : (s.emit e).ph = s.ph := rfl
@[simp] theorem State.emit_sel (e : Event) : (s.emit e).sel = s.sel := rfl
@[simp] theorem State.emit_buf0 (e : Event) : (s.emit e).buf0 = s.buf0 := rfl
@[simp] theorem State.emit_buf1 (e : Event) : (s.emit e).buf1 = s.buf1 := rfl
@[simp] theorem State.emit_len0 (e : Event) : (s.emit e).len0 = s.len0 := rfl
@[simp] theorem State.emit_len1 (e : Event) : (s.emit e).len1 = s.len1 := rfl
@[simp] theorem State.emit_ext (e : Event) : (s.emit e).ext = s.ext := rfl
@[simp] theorem State.emit_nextAddr (e : Event) : (s.emit e).nextAddr = s.nextAddr := rfl
@[simp] theorem State.emit_latch (e : Event) : (s.emit e).latch = s.latch := rfl
@[simp] theorem State.emit_lin (e : Event) : (s.emit e).lin = s.lin := rfl
@[simp] theorem State.emit_w (e : Event) : (s.emit e).w = s.w := rfl
@[simp] theorem State.emit_wl (e : Event) : (s.emit e).wl = s.wl := rfl
@[simp] theorem State.emit_path (e : Event) : (s.emit e).path = s.path := rfl
@[simp] theorem State.emit_ackOk (e : Event) : (s.emit e).ackOk = s.ackOk := rfl
@[simp] theorem State.emit_verdict (e : Event) : (s.emit e).verdict = s.verdict := rfl
@[simp] theorem State.emit_scratch (e : Event) : (s.emit e).scratch = s.scratch := rfl
@[simp] theorem State.emit_cfg (e : Event) : (s.emit e).cfg = s.cfg := rfl
@[simp] theorem State.emit_rx (e : Event) : (s.emit e).rx = s.rx := rfl
@[simp] theorem State.emit_txReady (e : Event) : (s.emit e).txReady = s.txReady := rfl
@[simp] theorem State.emit_flDone (e : Event) : (s.emit e).flDone = s.flDone := rfl
@[simp] theorem State.emit_rst (e : Event) : (s.emit e).rst = s.rst := rfl
@[simp] theorem State.emit_device (e : Event) : (s.emit e).device = s.device := rfl
@[simp] theorem State.emit_flash (e : Event) : (s.emit e).flash = s.flash := rfl
@[simp] theorem State.emit_free (e : Event) : (s.emit e).free = s.free := rfl
@[simp] theorem State.emit_trace (e : Event) : (s.emit e).trace = e :: s.trace := rfl

/-! ### State.clearLines -/

@[simp] theorem State.clearLines_st : (s.clearLines).st = s.st := rfl
@[simp] theorem State.clearLines_ph : (s.clearLines).ph = s.ph := rfl
@[simp] theorem State.clearLines_sel : (s.clearLines).sel = false := rfl
@[simp] theorem State.clearLines_buf0 : (s.clearLines).buf0 = s.buf0 := rfl
@[simp] theorem State.clearLines_buf1 : (s.clearLines).buf1 = s.buf1 := rfl
@[simp] theorem State.clearLines_len0 : (s.clearLines).len0 = 0 := rfl
@[simp] theorem State.clearLines_len1 : (s.clearLines).len1 = 0 := rfl
@[simp] theorem State.clearLines_ext : (s.clearLines).ext = s.ext := rfl
@[simp] theorem State.clearLines_nextAddr : (s.clearLines).nextAddr = s.nextAddr := rfl
@[simp] theorem State.clearLines_latch : (s.clearLines).latch = s.latch := rfl
@[simp] theorem State.clearLines_lin : (s.clearLines).lin = s.lin := rfl
@[simp] theorem State.clearLines_w : (s.clearLines).w = s.w := rfl
@[simp] theorem State.clearLines_wl : (s.clearLines).wl = s.wl := rfl
@[simp] theorem State.clearLines_path : (s.clearLines).path = s.path := rfl
@[simp] theorem State.clearLines_ackOk : (s.clearLines).ackOk = s.ackOk := rfl
@[simp] theorem State.clearLines_verdict : (s.clearLines).verdict = s.verdict := rfl
@[simp] theorem State.clearLines_scratch : (s.clearLines).scratch = s.scratch := rfl
@[simp] theorem State.clearLines_cfg : (s.clearLines).cfg = s.cfg := rfl
@[simp] theorem State.clearLines_rx : (s.clearLines).rx = s.rx := rfl
@[simp] theorem State.clearLines_txReady : (s.clearLines).txReady = s.txReady := rfl
@[simp] theorem State.clearLines_flDone : (s.clearLines).flDone = s.flDone := rfl
@[simp] theorem State.clearLines_rst : (s.clearLines).rst = s.rst := rfl
@[simp] theorem State.clearLines_device : (s.clearLines).device = s.device := rfl
@[simp] theorem State.clearLines_flash : (s.clearLines).flash = s.flash := rfl
@[simp] theorem State.clearLines_free : (s.clearLines).free = s.free := rfl
@[simp] theorem State.clearLines_trace : (s.clearLines).trace = s.trace := rfl

/-! ### State.setFlags -/

@[simp] theorem State.setFlags_st (v : Verdict) (a : Bool) : (s.setFlags v a).st = s.st := rfl
@[simp] theorem State.setFlags_ph (v : Verdict) (a : Bool) : (s.setFlags v a).ph = s.ph := rfl
@[simp] theorem State.setFlags_sel (v : Verdict) (a : Bool) : (s.setFlags v a).sel = s.sel := rfl
@[simp] theorem State.setFlags_buf0 (v : Verdict) (a : Bool) : (s.setFlags v a).buf0 = s.buf0 := rfl
@[simp] theorem State.setFlags_buf1 (v : Verdict) (a : Bool) : (s.setFlags v a).buf1 = s.buf1 := rfl
@[simp] theorem State.setFlags_len0 (v : Verdict) (a : Bool) : (s.setFlags v a).len0 = s.len0 := rfl
@[simp] theorem State.setFlags_len1 (v : Verdict) (a : Bool) : (s.setFlags v a).len1 = s.len1 := rfl
@[simp] theorem State.setFlags_ext (v : Verdict) (a : Bool) : (s.setFlags v a).ext = s.ext := rfl
@[simp] theorem State.setFlags_nextAddr (v : Verdict) (a : Bool) : (s.setFlags v a).nextAddr = s.nextAddr := rfl
@[simp] theorem State.setFlags_latch (v : Verdict) (a : Bool) : (s.setFlags v a).latch = s.latch := rfl
@[simp] theorem State.setFlags_lin (v : Verdict) (a : Bool) : (s.setFlags v a).lin = s.lin := rfl
@[simp] theorem State.setFlags_w (v : Verdict) (a : Bool) : (s.setFlags v a).w = s.w := rfl
@[simp] theorem State.setFlags_wl (v : Verdict) (a : Bool) : (s.setFlags v a).wl = s.wl := rfl
@[simp] theorem State.setFlags_path (v : Verdict) (a : Bool) : (s.setFlags v a).path = s.path := rfl
@[simp] theorem State.setFlags_ackOk (v : Verdict) (a : Bool) : (s.setFlags v a).ackOk = a := rfl
@[simp] theorem State.setFlags_verdict (v : Verdict) (a : Bool) : (s.setFlags v a).verdict = v := rfl
@[simp] theorem State.setFlags_scratch (v : Verdict) (a : Bool) : (s.setFlags v a).scratch = s.scratch := rfl
@[simp] theorem State.setFlags_cfg (v : Verdict) (a : Bool) : (s.setFlags v a).cfg = s.cfg := rfl
@[simp] theorem State.setFlags_rx (v : Verdict) (a : Bool) : (s.setFlags v a).rx = s.rx := rfl
@[simp] theorem State.setFlags_txReady (v : Verdict) (a : Bool) : (s.setFlags v a).txReady = s.txReady := rfl
@[simp] theorem State.setFlags_flDone (v : Verdict) (a : Bool) : (s.setFlags v a).flDone = s.flDone := rfl
@[simp] theorem State.setFlags_rst (v : Verdict) (a : Bool) : (s.setFlags v a).rst = s.rst := rfl
@[simp] theorem State.setFlags_device (v : Verdict) (a : Bool) : (s.setFlags v a).device = s.device := rfl
@[simp] theorem State.setFlags_flash (v : Verdict) (a : Bool) : (s.setFlags v a).flash = s.flash := rfl
@[simp] theorem State.setFlags_free (v : Verdict) (a : Bool) : (s.setFlags v a).free = s.free := rfl
@[simp] theorem State.setFlags_trace (v : Verdict) (a : Bool) : (s.setFlags v a).trace = s.trace := rfl

/-! ### State.reject -/

@[simp] theorem State.reject_st (v : Verdict) : (s.reject v).st = .acknowledge := rfl
@[simp] theorem State.reject_ph (v : Verdict) : (s.reject v).ph = 0 := rfl
@[simp] theorem State.reject_sel (v : Verdict) : (s.reject v).sel = s.sel := rfl
@[simp] theorem State.reject_buf0 (v : Verdict) : (s.reject v).buf0 = s.buf0 := rfl
@[simp] theorem State.reject_buf1 (v : Verdict) : (s.reject v).buf1 = s.buf1 := rfl
@[simp] theorem State.reject_len0 (v : Verdict) : (s.reject v).len0 = s.len0 := rfl
@[simp] theorem State.reject_len1 (v : Verdict) : (s.reject v).len1 = s.len1 := rfl
@[simp] theorem State.reject_ext (v : Verdict) : (s.reject v).ext = s.ext := rfl
@[simp] theorem State.reject_nextAddr (v : Verdict) : (s.reject v).nextAddr = s.nextAddr := rfl
@[simp] theorem State.reject_latch (v : Verdict) : (s.reject v).latch = s.latch := rfl
@[simp] theorem State.reject_lin (v : Verdict) : (s.reject v).lin = s.lin := rfl
@[simp] theorem State.reject_w (v : Verdict) : (s.reject v).w = s.w := rfl
@[simp] theorem State.reject_wl (v : Verdict) : (s.reject v).wl = s.wl := rfl
@[simp] theorem State.reject_path (v : Verdict) : (s.reject v).path = s.path := rfl
@[simp] theorem State.reject_ackOk (v : Verdict) : (s.reject v).ackOk = false := rfl
@[simp] theorem State.reject_verdict (v : Verdict) : (s.reject v).verdict = v := rfl
@[simp] theorem State.reject_scratch (v : Verdict) : (s.reject v).scratch = s.scratch := rfl
@[simp] theorem State.reject_cfg (v : Verdict) : (s.reject v).cfg = s.cfg := rfl
@[simp] theorem State.reject_rx (v : Verdict) : (s.reject v).rx = s.rx := rfl
@[simp] theorem State.reject_txReady (v : Verdict) : (s.reject v).txReady = s.txReady := rfl
@[simp] theorem State.reject_flDone (v : Verdict) : (s.reject v).flDone = s.flDone := rfl
@[simp] theorem State.reject_rst (v : Verdict) : (s.reject v).rst = s.rst := rfl
@[simp] theorem State.reject_device (v : Verdict) : (s.reject v).device = s.device := rfl
@[simp] theorem State.reject_flash (v : Verdict) : (s.reject v).flash = s.flash := rfl
@[simp] theorem State.reject_free (v : Verdict) : (s.reject v).free = s.free := rfl
@[simp] theorem State.reject_trace (v : Verdict) : (s.reject v).trace = s.trace := rfl

/-! ### State.acceptNonrecord -/

@[simp] theorem State.acceptNonrecord_st : (s.acceptNonrecord).st = .acknowledge := rfl
@[simp] theorem State.acceptNonrecord_ph : (s.acceptNonrecord).ph = 0 := rfl
@[simp] theorem State.acceptNonrecord_sel : (s.acceptNonrecord).sel = s.sel := rfl
@[simp] theorem State.acceptNonrecord_buf0 : (s.acceptNonrecord).buf0 = s.buf0 := rfl
@[simp] theorem State.acceptNonrecord_buf1 : (s.acceptNonrecord).buf1 = s.buf1 := rfl
@[simp] theorem State.acceptNonrecord_len0 : (s.acceptNonrecord).len0 = s.len0 := rfl
@[simp] theorem State.acceptNonrecord_len1 : (s.acceptNonrecord).len1 = s.len1 := rfl
@[simp] theorem State.acceptNonrecord_ext : (s.acceptNonrecord).ext = s.ext := rfl
@[simp] theorem State.acceptNonrecord_nextAddr : (s.acceptNonrecord).nextAddr = s.nextAddr := rfl
@[simp] theorem State.acceptNonrecord_latch : (s.acceptNonrecord).latch = s.latch := rfl
@[simp] theorem State.acceptNonrecord_lin : (s.acceptNonrecord).lin = s.lin := rfl
@[simp] theorem State.acceptNonrecord_w : (s.acceptNonrecord).w = s.w := rfl
@[simp] theorem State.acceptNonrecord_wl : (s.acceptNonrecord).wl = s.wl := rfl
@[simp] theorem State.acceptNonrecord_path : (s.acceptNonrecord).path = s.path := rfl
@[simp] theorem State.acceptNonrecord_ackOk : (s.acceptNonrecord).ackOk = true := rfl
@[simp] theorem State.acceptNonrecord_verdict : (s.acceptNonrecord).verdict = .okNonrecord := rfl
@[simp] theorem State.acceptNonrecord_scratch : (s.acceptNonrecord).scratch = s.scratch := rfl
@[simp] theorem State.acceptNonrecord_cfg : (s.acceptNonrecord).cfg = s.cfg := rfl
@[simp] theorem State.acceptNonrecord_rx : (s.acceptNonrecord).rx = s.rx := rfl
@[simp] theorem State.acceptNonrecord_txReady : (s.acceptNonrecord).txReady = s.txReady := rfl
@[simp] theorem State.acceptNonrecord_flDone : (s.acceptNonrecord).flDone = s.flDone := rfl
@[simp] theorem State.acceptNonrecord_rst : (s.acceptNonrecord).rst = s.rst := rfl
@[simp] theorem State.acceptNonrecord_device : (s.acceptNonrecord).device = s.device := rfl
@[simp] theorem State.acceptNonrecord_flash : (s.acceptNonrecord).flash = s.flash := rfl
@[simp] theorem State.acceptNonrecord_free : (s.acceptNonrecord).free = s.free := rfl
@[simp] theorem State.acceptNonrecord_trace : (s.acceptNonrecord).trace = s.trace := rfl

/-! ### State.acceptRecord -/

@[simp] theorem State.acceptRecord_st (r : Record) : (s.acceptRecord r).st = .dispatch := rfl
@[simp] theorem State.acceptRecord_ph (r : Record) : (s.acceptRecord r).ph = 0 := rfl
@[simp] theorem State.acceptRecord_sel (r : Record) : (s.acceptRecord r).sel = s.sel := rfl
@[simp] theorem State.acceptRecord_buf0 (r : Record) : (s.acceptRecord r).buf0 = s.buf0 := rfl
@[simp] theorem State.acceptRecord_buf1 (r : Record) : (s.acceptRecord r).buf1 = s.buf1 := rfl
@[simp] theorem State.acceptRecord_len0 (r : Record) : (s.acceptRecord r).len0 = s.len0 := rfl
@[simp] theorem State.acceptRecord_len1 (r : Record) : (s.acceptRecord r).len1 = s.len1 := rfl
@[simp] theorem State.acceptRecord_ext (r : Record) : (s.acceptRecord r).ext = s.ext := rfl
@[simp] theorem State.acceptRecord_nextAddr (r : Record) : (s.acceptRecord r).nextAddr = s.nextAddr := rfl
@[simp] theorem State.acceptRecord_latch (r : Record) : (s.acceptRecord r).latch = r := rfl
@[simp] theorem State.acceptRecord_lin (r : Record) : (s.acceptRecord r).lin = s.lin := rfl
@[simp] theorem State.acceptRecord_w (r : Record) : (s.acceptRecord r).w = s.w := rfl
@[simp] theorem State.acceptRecord_wl (r : Record) : (s.acceptRecord r).wl = s.wl := rfl
@[simp] theorem State.acceptRecord_path (r : Record) : (s.acceptRecord r).path = s.path := rfl
@[simp] theorem State.acceptRecord_ackOk (r : Record) : (s.acceptRecord r).ackOk = true := rfl
@[simp] theorem State.acceptRecord_verdict (r : Record) : (s.acceptRecord r).verdict = .okRecord := rfl
@[simp] theorem State.acceptRecord_scratch (r : Record) : (s.acceptRecord r).scratch = s.scratch := rfl
@[simp] theorem State.acceptRecord_cfg (r : Record) : (s.acceptRecord r).cfg = s.cfg := rfl
@[simp] theorem State.acceptRecord_rx (r : Record) : (s.acceptRecord r).rx = s.rx := rfl
@[simp] theorem State.acceptRecord_txReady (r : Record) : (s.acceptRecord r).txReady = s.txReady := rfl
@[simp] theorem State.acceptRecord_flDone (r : Record) : (s.acceptRecord r).flDone = s.flDone := rfl
@[simp] theorem State.acceptRecord_rst (r : Record) : (s.acceptRecord r).rst = s.rst := rfl
@[simp] theorem State.acceptRecord_device (r : Record) : (s.acceptRecord r).device = s.device := rfl
@[simp] theorem State.acceptRecord_flash (r : Record) : (s.acceptRecord r).flash = s.flash := rfl
@[simp] theorem State.acceptRecord_free (r : Record) : (s.acceptRecord r).free = s.free := rfl
@[simp] theorem State.acceptRecord_trace (r : Record) : (s.acceptRecord r).trace = s.trace := rfl

/-! ### State.latchAddresses -/

@[simp] theorem State.latchAddresses_st (f : Fields) : (s.latchAddresses f).st = s.st := rfl
@[simp] theorem State.latchAddresses_ph (f : Fields) : (s.latchAddresses f).ph = s.ph := rfl
@[simp] theorem State.latchAddresses_sel (f : Fields) : (s.latchAddresses f).sel = s.sel := rfl
@[simp] theorem State.latchAddresses_buf0 (f : Fields) : (s.latchAddresses f).buf0 = s.buf0 := rfl
@[simp] theorem State.latchAddresses_buf1 (f : Fields) : (s.latchAddresses f).buf1 = s.buf1 := rfl
@[simp] theorem State.latchAddresses_len0 (f : Fields) : (s.latchAddresses f).len0 = s.len0 := rfl
@[simp] theorem State.latchAddresses_len1 (f : Fields) : (s.latchAddresses f).len1 = s.len1 := rfl
@[simp] theorem State.latchAddresses_ext (f : Fields) : (s.latchAddresses f).ext = s.ext := rfl
@[simp] theorem State.latchAddresses_nextAddr (f : Fields) : (s.latchAddresses f).nextAddr = s.nextAddr := rfl
@[simp] theorem State.latchAddresses_latch (f : Fields) : (s.latchAddresses f).latch = s.latch := rfl
@[simp] theorem State.latchAddresses_lin (f : Fields) : (s.latchAddresses f).lin = linearAddr s.ext f.ra := rfl
@[simp] theorem State.latchAddresses_w (f : Fields) : (s.latchAddresses f).w = firstWord (linearAddr s.ext f.ra) :=
  rfl
@[simp] theorem State.latchAddresses_wl (f : Fields) : (s.latchAddresses f).wl = lastWord (linearAddr s.ext f.ra) f.rc :=
  rfl
@[simp] theorem State.latchAddresses_path (f : Fields) : (s.latchAddresses f).path = s.path := rfl
@[simp] theorem State.latchAddresses_ackOk (f : Fields) : (s.latchAddresses f).ackOk = s.ackOk := rfl
@[simp] theorem State.latchAddresses_verdict (f : Fields) : (s.latchAddresses f).verdict = s.verdict := rfl
@[simp] theorem State.latchAddresses_scratch (f : Fields) : (s.latchAddresses f).scratch = s.scratch := rfl
@[simp] theorem State.latchAddresses_cfg (f : Fields) : (s.latchAddresses f).cfg = s.cfg := rfl
@[simp] theorem State.latchAddresses_rx (f : Fields) : (s.latchAddresses f).rx = s.rx := rfl
@[simp] theorem State.latchAddresses_txReady (f : Fields) : (s.latchAddresses f).txReady = s.txReady := rfl
@[simp] theorem State.latchAddresses_flDone (f : Fields) : (s.latchAddresses f).flDone = s.flDone := rfl
@[simp] theorem State.latchAddresses_rst (f : Fields) : (s.latchAddresses f).rst = s.rst := rfl
@[simp] theorem State.latchAddresses_device (f : Fields) : (s.latchAddresses f).device = s.device := rfl
@[simp] theorem State.latchAddresses_flash (f : Fields) : (s.latchAddresses f).flash = s.flash := rfl
@[simp] theorem State.latchAddresses_free (f : Fields) : (s.latchAddresses f).free = s.free := rfl
@[simp] theorem State.latchAddresses_trace (f : Fields) : (s.latchAddresses f).trace = s.trace := rfl

/-! ### State.takePath -/

@[simp] theorem State.takePath_st (p : Path) (x : St) : (s.takePath p x).st = x := rfl
@[simp] theorem State.takePath_ph (p : Path) (x : St) : (s.takePath p x).ph = 0 := rfl
@[simp] theorem State.takePath_sel (p : Path) (x : St) : (s.takePath p x).sel = s.sel := rfl
@[simp] theorem State.takePath_buf0 (p : Path) (x : St) : (s.takePath p x).buf0 = s.buf0 := rfl
@[simp] theorem State.takePath_buf1 (p : Path) (x : St) : (s.takePath p x).buf1 = s.buf1 := rfl
@[simp] theorem State.takePath_len0 (p : Path) (x : St) : (s.takePath p x).len0 = s.len0 := rfl
@[simp] theorem State.takePath_len1 (p : Path) (x : St) : (s.takePath p x).len1 = s.len1 := rfl
@[simp] theorem State.takePath_ext (p : Path) (x : St) : (s.takePath p x).ext = s.ext := rfl
@[simp] theorem State.takePath_nextAddr (p : Path) (x : St) : (s.takePath p x).nextAddr = s.nextAddr := rfl
@[simp] theorem State.takePath_latch (p : Path) (x : St) : (s.takePath p x).latch = s.latch := rfl
@[simp] theorem State.takePath_lin (p : Path) (x : St) : (s.takePath p x).lin = s.lin := rfl
@[simp] theorem State.takePath_w (p : Path) (x : St) : (s.takePath p x).w = s.w := rfl
@[simp] theorem State.takePath_wl (p : Path) (x : St) : (s.takePath p x).wl = s.wl := rfl
@[simp] theorem State.takePath_path (p : Path) (x : St) : (s.takePath p x).path = p := rfl
@[simp] theorem State.takePath_ackOk (p : Path) (x : St) : (s.takePath p x).ackOk = s.ackOk := rfl
@[simp] theorem State.takePath_verdict (p : Path) (x : St) : (s.takePath p x).verdict = s.verdict := rfl
@[simp] theorem State.takePath_scratch (p : Path) (x : St) : (s.takePath p x).scratch = s.scratch := rfl
@[simp] theorem State.takePath_cfg (p : Path) (x : St) : (s.takePath p x).cfg = s.cfg := rfl
@[simp] theorem State.takePath_rx (p : Path) (x : St) : (s.takePath p x).rx = s.rx := rfl
@[simp] theorem State.takePath_txReady (p : Path) (x : St) : (s.takePath p x).txReady = s.txReady := rfl
@[simp] theorem State.takePath_flDone (p : Path) (x : St) : (s.takePath p x).flDone = s.flDone := rfl
@[simp] theorem State.takePath_rst (p : Path) (x : St) : (s.takePath p x).rst = s.rst := rfl
@[simp] theorem State.takePath_device (p : Path) (x : St) : (s.takePath p x).device = s.device := rfl
@[simp] theorem State.takePath_flash (p : Path) (x : St) : (s.takePath p x).flash = s.flash := rfl
@[simp] theorem State.takePath_free (p : Path) (x : St) : (s.takePath p x).free = s.free := rfl
@[simp] theorem State.takePath_trace (p : Path) (x : St) : (s.takePath p x).trace = s.trace := rfl

/-! ### State.mergePayload -/

@[simp] theorem State.mergePayload_st (u : Word) : (s.mergePayload u).st = s.st := rfl
@[simp] theorem State.mergePayload_ph (u : Word) : (s.mergePayload u).ph = s.ph := rfl
@[simp] theorem State.mergePayload_sel (u : Word) : (s.mergePayload u).sel = s.sel := rfl
@[simp] theorem State.mergePayload_buf0 (u : Word) : (s.mergePayload u).buf0 = s.buf0 := rfl
@[simp] theorem State.mergePayload_buf1 (u : Word) : (s.mergePayload u).buf1 = s.buf1 := rfl
@[simp] theorem State.mergePayload_len0 (u : Word) : (s.mergePayload u).len0 = s.len0 := rfl
@[simp] theorem State.mergePayload_len1 (u : Word) : (s.mergePayload u).len1 = s.len1 := rfl
@[simp] theorem State.mergePayload_ext (u : Word) : (s.mergePayload u).ext = s.ext := rfl
@[simp] theorem State.mergePayload_nextAddr (u : Word) : (s.mergePayload u).nextAddr = s.nextAddr := rfl
@[simp] theorem State.mergePayload_latch (u : Word) : (s.mergePayload u).latch = s.latch := rfl
@[simp] theorem State.mergePayload_lin (u : Word) : (s.mergePayload u).lin = s.lin := rfl
@[simp] theorem State.mergePayload_w (u : Word) : (s.mergePayload u).w = s.w := rfl
@[simp] theorem State.mergePayload_wl (u : Word) : (s.mergePayload u).wl = s.wl := rfl
@[simp] theorem State.mergePayload_path (u : Word) : (s.mergePayload u).path = s.path := rfl
@[simp] theorem State.mergePayload_ackOk (u : Word) : (s.mergePayload u).ackOk = s.ackOk := rfl
@[simp] theorem State.mergePayload_verdict (u : Word) : (s.mergePayload u).verdict = s.verdict := rfl
@[simp] theorem State.mergePayload_scratch (u : Word) :
    (s.mergePayload u).scratch = mergeAt s.scratch (2 * (s.w.toNat - u.toNat)) (s.latch.rd.take s.latch.rc.toNat) := rfl
@[simp] theorem State.mergePayload_cfg (u : Word) : (s.mergePayload u).cfg = s.cfg := rfl
@[simp] theorem State.mergePayload_rx (u : Word) : (s.mergePayload u).rx = s.rx := rfl
@[simp] theorem State.mergePayload_txReady (u : Word) : (s.mergePayload u).txReady = s.txReady := rfl
@[simp] theorem State.mergePayload_flDone (u : Word) : (s.mergePayload u).flDone = s.flDone := rfl
@[simp] theorem State.mergePayload_rst (u : Word) : (s.mergePayload u).rst = s.rst := rfl
@[simp] theorem State.mergePayload_device (u : Word) : (s.mergePayload u).device = s.device := rfl
@[simp] theorem State.mergePayload_flash (u : Word) : (s.mergePayload u).flash = s.flash := rfl
@[simp] theorem State.mergePayload_free (u : Word) : (s.mergePayload u).free = s.free := rfl
@[simp] theorem State.mergePayload_trace (u : Word) : (s.mergePayload u).trace = s.trace := rfl

/-! ### State.wrote -/

@[simp] theorem State.wrote_st : (s.wrote).st = .acknowledge := rfl
@[simp] theorem State.wrote_ph : (s.wrote).ph = 0 := rfl
@[simp] theorem State.wrote_sel : (s.wrote).sel = s.sel := rfl
@[simp] theorem State.wrote_buf0 : (s.wrote).buf0 = s.buf0 := rfl
@[simp] theorem State.wrote_buf1 : (s.wrote).buf1 = s.buf1 := rfl
@[simp] theorem State.wrote_len0 : (s.wrote).len0 = s.len0 := rfl
@[simp] theorem State.wrote_len1 : (s.wrote).len1 = s.len1 := rfl
@[simp] theorem State.wrote_ext : (s.wrote).ext = s.ext := rfl
@[simp] theorem State.wrote_nextAddr : (s.wrote).nextAddr = some (wordAfter s.wl) := rfl
@[simp] theorem State.wrote_latch : (s.wrote).latch = s.latch := rfl
@[simp] theorem State.wrote_lin : (s.wrote).lin = s.lin := rfl
@[simp] theorem State.wrote_w : (s.wrote).w = s.w := rfl
@[simp] theorem State.wrote_wl : (s.wrote).wl = s.wl := rfl
@[simp] theorem State.wrote_path : (s.wrote).path = s.path := rfl
@[simp] theorem State.wrote_ackOk : (s.wrote).ackOk = s.ackOk := rfl
@[simp] theorem State.wrote_verdict : (s.wrote).verdict = s.verdict := rfl
@[simp] theorem State.wrote_scratch : (s.wrote).scratch = s.scratch := rfl
@[simp] theorem State.wrote_cfg : (s.wrote).cfg = s.cfg := rfl
@[simp] theorem State.wrote_rx : (s.wrote).rx = s.rx := rfl
@[simp] theorem State.wrote_txReady : (s.wrote).txReady = s.txReady := rfl
@[simp] theorem State.wrote_flDone : (s.wrote).flDone = s.flDone := rfl
@[simp] theorem State.wrote_rst : (s.wrote).rst = s.rst := rfl
@[simp] theorem State.wrote_device : (s.wrote).device = s.device := rfl
@[simp] theorem State.wrote_flash : (s.wrote).flash = s.flash := rfl
@[simp] theorem State.wrote_free : (s.wrote).free = s.free := rfl
@[simp] theorem State.wrote_trace : (s.wrote).trace = s.trace := rfl

/-! ### State.flashReadScratch -/

@[simp] theorem State.flashReadScratch_st (wa : Word) (n : Nat) : (s.flashReadScratch wa n).st = s.st := rfl
@[simp] theorem State.flashReadScratch_ph (wa : Word) (n : Nat) : (s.flashReadScratch wa n).ph = s.ph := rfl
@[simp] theorem State.flashReadScratch_sel (wa : Word) (n : Nat) : (s.flashReadScratch wa n).sel = s.sel := rfl
@[simp] theorem State.flashReadScratch_buf0 (wa : Word) (n : Nat) : (s.flashReadScratch wa n).buf0 = s.buf0 := rfl
@[simp] theorem State.flashReadScratch_buf1 (wa : Word) (n : Nat) : (s.flashReadScratch wa n).buf1 = s.buf1 := rfl
@[simp] theorem State.flashReadScratch_len0 (wa : Word) (n : Nat) : (s.flashReadScratch wa n).len0 = s.len0 := rfl
@[simp] theorem State.flashReadScratch_len1 (wa : Word) (n : Nat) : (s.flashReadScratch wa n).len1 = s.len1 := rfl
@[simp] theorem State.flashReadScratch_ext (wa : Word) (n : Nat) : (s.flashReadScratch wa n).ext = s.ext := rfl
@[simp] theorem State.flashReadScratch_nextAddr (wa : Word) (n : Nat) :
    (s.flashReadScratch wa n).nextAddr = s.nextAddr := rfl
@[simp] theorem State.flashReadScratch_latch (wa : Word) (n : Nat) : (s.flashReadScratch wa n).latch = s.latch := rfl
@[simp] theorem State.flashReadScratch_lin (wa : Word) (n : Nat) : (s.flashReadScratch wa n).lin = s.lin := rfl
@[simp] theorem State.flashReadScratch_w (wa : Word) (n : Nat) : (s.flashReadScratch wa n).w = s.w := rfl
@[simp] theorem State.flashReadScratch_wl (wa : Word) (n : Nat) : (s.flashReadScratch wa n).wl = s.wl := rfl
@[simp] theorem State.flashReadScratch_path (wa : Word) (n : Nat) : (s.flashReadScratch wa n).path = s.path := rfl
@[simp] theorem State.flashReadScratch_ackOk (wa : Word) (n : Nat) : (s.flashReadScratch wa n).ackOk = s.ackOk := rfl
@[simp] theorem State.flashReadScratch_verdict (wa : Word) (n : Nat) : (s.flashReadScratch wa n).verdict = s.verdict :=
  rfl
@[simp] theorem State.flashReadScratch_scratch (wa : Word) (n : Nat) :
    (s.flashReadScratch wa n).scratch = s.flashAnswer wa n := rfl
@[simp] theorem State.flashReadScratch_cfg (wa : Word) (n : Nat) : (s.flashReadScratch wa n).cfg = s.cfg := rfl
@[simp] theorem State.flashReadScratch_rx (wa : Word) (n : Nat) : (s.flashReadScratch wa n).rx = s.rx := rfl
@[simp] theorem State.flashReadScratch_txReady (wa : Word) (n : Nat) : (s.flashReadScratch wa n).txReady = s.txReady :=
  rfl
@[simp] theorem State.flashReadScratch_flDone (wa : Word) (n : Nat) : (s.flashReadScratch wa n).flDone = s.flDone :=
  rfl
@[simp] theorem State.flashReadScratch_rst (wa : Word) (n : Nat) : (s.flashReadScratch wa n).rst = s.rst := rfl
@[simp] theorem State.flashReadScratch_device (wa : Word) (n : Nat) : (s.flashReadScratch wa n).device = s.device :=
  rfl
@[simp] theorem State.flashReadScratch_flash (wa : Word) (n : Nat) : (s.flashReadScratch wa n).flash = s.flash := rfl
@[simp] theorem State.flashReadScratch_free (wa : Word) (n : Nat) :
    (s.flashReadScratch wa n).free = (match s.device with | .reference => s.free | .unspecified => s.free + n) := rfl
@[simp] theorem State.flashReadScratch_trace (wa : Word) (n : Nat) :
    (s.flashReadScratch wa n).trace = .flRead wa n :: s.trace := rfl

/-! ### State.flashErase -/

@[simp] theorem State.flashErase_st (wa : Word) : (s.flashErase wa).st = s.st := by
  unfold State.flashErase; split <;> rfl
@[simp] theorem State.flashErase_ph (wa : Word) : (s.flashErase wa).ph = s.ph := by
  unfold State.flashErase; split <;> rfl
@[simp] theorem State.flashErase_sel (wa : Word) : (s.flashErase wa).sel = s.sel := by
  unfold State.flashErase; split <;> rfl
@[simp] theorem State.flashErase_buf0 (wa : Word) : (s.flashErase wa).buf0 = s.buf0 := by
  unfold State.flashErase; split <;> rfl
@[simp] theorem State.flashErase_buf1 (wa : Word) : (s.flashErase wa).buf1 = s.buf1 := by
  unfold State.flashErase; split <;> rfl
@[simp] theorem State.flashErase_len0 (wa : Word) : (s.flashErase wa).len0 = s.len0 := by
  unfold State.flashErase; split <;> rfl
@[simp] theorem State.flashErase_len1 (wa : Word) : (s.flashErase wa).len1 = s.len1 := by
  unfold State.flashErase; split <;> rfl
@[simp] theorem State.flashErase_ext (wa : Word) : (s.flashErase wa).ext = s.ext := by
  unfold State.flashErase; split <;> rfl
@[simp] theorem State.flashErase_nextAddr (wa : Word) : (s.flashErase wa).nextAddr = s.nextAddr := by
  unfold State.flashErase; split <;> rfl
@[simp] theorem State.flashErase_latch (wa : Word) : (s.flashErase wa).latch = s.latch := by
  unfold State.flashErase; split <;> rfl
@[simp] theorem State.flashErase_lin (wa : Word) : (s.flashErase wa).lin = s.lin := by
  unfold State.flashErase; split <;> rfl
@[simp] theorem State.flashErase_w (wa : Word) : (s.flashErase wa).w = s.w := by
  unfold State.flashErase; split <;> rfl
@[simp] theorem State.flashErase_wl (wa : Word) : (s.flashErase wa).wl = s.wl := by
  unfold State.flashErase; split <;> rfl
@[simp] theorem State.flashErase_path (wa : Word) : (s.flashErase wa).path = s.path := by
  unfold State.flashErase; split <;> rfl
@[simp] theorem State.flashErase_ackOk (wa : Word) : (s.flashErase wa).ackOk = s.ackOk := by
  unfold State.flashErase; split <;> rfl
@[simp] theorem State.flashErase_verdict (wa : Word) : (s.flashErase wa).verdict = s.verdict := by
  unfold State.flashErase; split <;> rfl
@[simp] theorem State.flashErase_scratch (wa : Word) : (s.flashErase wa).scratch = s.scratch := by
  unfold State.flashErase; split <;> rfl
@[simp] theorem State.flashErase_cfg (wa : Word) : (s.flashErase wa).cfg = s.cfg := by
  unfold State.flashErase; split <;> rfl
@[simp] theorem State.flashErase_rx (wa : Word) : (s.flashErase wa).rx = s.rx := by
  unfold State.flashErase; split <;> rfl
@[simp] theorem State.flashErase_txReady (wa : Word) : (s.flashErase wa).txReady = s.txReady := by
  unfold State.flashErase; split <;> rfl
@[simp] theorem State.flashErase_flDone (wa : Word) : (s.flashErase wa).flDone = s.flDone := by
  unfold State.flashErase; split <;> rfl
@[simp] theorem State.flashErase_rst (wa : Word) : (s.flashErase wa).rst = s.rst := by
  unfold State.flashErase; split <;> rfl
@[simp] theorem State.flashErase_device (wa : Word) : (s.flashErase wa).device = s.device := by
  unfold State.flashErase; split <;> rfl
@[simp] theorem State.flashErase_free (wa : Word) : (s.flashErase wa).free = s.free := by
  unfold State.flashErase; split <;> rfl
@[simp] theorem State.flashErase_trace (wa : Word) : (s.flashErase wa).trace = .flErase wa :: s.trace := by
  unfold State.flashErase; split <;> rfl

/-! ### State.flashWrite -/

@[simp] theorem State.flashWrite_st (wa : Word) (d : List Byte) (n : Nat) : (s.flashWrite wa d n).st = s.st := by
  unfold State.flashWrite; split <;> rfl
@[simp] theorem State.flashWrite_ph (wa : Word) (d : List Byte) (n : Nat) : (s.flashWrite wa d n).ph = s.ph := by
  unfold State.flashWrite; split <;> rfl
@[simp] theorem State.flashWrite_sel (wa : Word) (d : List Byte) (n : Nat) : (s.flashWrite wa d n).sel = s.sel := by
  unfold State.flashWrite; split <;> rfl
@[simp] theorem State.flashWrite_buf0 (wa : Word) (d : List Byte) (n : Nat) : (s.flashWrite wa d n).buf0 = s.buf0 := by
  unfold State.flashWrite; split <;> rfl
@[simp] theorem State.flashWrite_buf1 (wa : Word) (d : List Byte) (n : Nat) : (s.flashWrite wa d n).buf1 = s.buf1 := by
  unfold State.flashWrite; split <;> rfl
@[simp] theorem State.flashWrite_len0 (wa : Word) (d : List Byte) (n : Nat) : (s.flashWrite wa d n).len0 = s.len0 := by
  unfold State.flashWrite; split <;> rfl
@[simp] theorem State.flashWrite_len1 (wa : Word) (d : List Byte) (n : Nat) : (s.flashWrite wa d n).len1 = s.len1 := by
  unfold State.flashWrite; split <;> rfl
@[simp] theorem State.flashWrite_ext (wa : Word) (d : List Byte) (n : Nat) : (s.flashWrite wa d n).ext = s.ext := by
  unfold State.flashWrite; split <;> rfl
@[simp] theorem State.flashWrite_nextAddr (wa : Word) (d : List Byte) (n : Nat) : (s.flashWrite wa d n).nextAddr = s.nextAddr := by
  unfold State.flashWrite; split <;> rfl
@[simp] theorem State.flashWrite_latch (wa : Word) (d : List Byte) (n : Nat) : (s.flashWrite wa d n).latch = s.latch := by
  unfold State.flashWrite; split <;> rfl
@[simp] theorem State.flashWrite_lin (wa : Word) (d : List Byte) (n : Nat) : (s.flashWrite wa d n).lin = s.lin := by
  unfold State.flashWrite; split <;> rfl
@[simp] theorem State.flashWrite_w (wa : Word) (d : List Byte) (n : Nat) : (s.flashWrite wa d n).w = s.w := by
  unfold State.flashWrite; split <;> rfl
@[simp] theorem State.flashWrite_wl (wa : Word) (d : List Byte) (n : Nat) : (s.flashWrite wa d n).wl = s.wl := by
  unfold State.flashWrite; split <;> rfl
@[simp] theorem State.flashWrite_path (wa : Word) (d : List Byte) (n : Nat) : (s.flashWrite wa d n).path = s.path := by
  unfold State.flashWrite; split <;> rfl
@[simp] theorem State.flashWrite_ackOk (wa : Word) (d : List Byte) (n : Nat) : (s.flashWrite wa d n).ackOk = s.ackOk := by
  unfold State.flashWrite; split <;> rfl
@[simp] theorem State.flashWrite_verdict (wa : Word) (d : List Byte) (n : Nat) : (s.flashWrite wa d n).verdict = s.verdict := by
  unfold State.flashWrite; split <;> rfl
@[simp] theorem State.flashWrite_scratch (wa : Word) (d : List Byte) (n : Nat) : (s.flashWrite wa d n).scratch = s.scratch := by
  unfold State.flashWrite; split <;> rfl
@[simp] theorem State.flashWrite_cfg (wa : Word) (d : List Byte) (n : Nat) : (s.flashWrite wa d n).cfg = s.cfg := by
  unfold State.flashWrite; split <;> rfl
@[simp] theorem State.flashWrite_rx (wa : Word) (d : List Byte) (n : Nat) : (s.flashWrite wa d n).rx = s.rx := by
  unfold State.flashWrite; split <;> rfl
@[simp] theorem State.flashWrite_txReady (wa : Word) (d : List Byte) (n : Nat) : (s.flashWrite wa d n).txReady = s.txReady := by
  unfold State.flashWrite; split <;> rfl
@[simp] theorem State.flashWrite_flDone (wa : Word) (d : List Byte) (n : Nat) : (s.flashWrite wa d n).flDone = s.flDone := by
  unfold State.flashWrite; split <;> rfl
@[simp] theorem State.flashWrite_rst (wa : Word) (d : List Byte) (n : Nat) : (s.flashWrite wa d n).rst = s.rst := by
  unfold State.flashWrite; split <;> rfl
@[simp] theorem State.flashWrite_device (wa : Word) (d : List Byte) (n : Nat) : (s.flashWrite wa d n).device = s.device := by
  unfold State.flashWrite; split <;> rfl
@[simp] theorem State.flashWrite_free (wa : Word) (d : List Byte) (n : Nat) : (s.flashWrite wa d n).free = s.free := by
  unfold State.flashWrite; split <;> rfl
@[simp] theorem State.flashWrite_trace (wa : Word) (d : List Byte) (n : Nat) : (s.flashWrite wa d n).trace = .flWrite wa d n :: s.trace := by
  unfold State.flashWrite; split <;> rfl

/-! ### State.resetWith -/

@[simp] theorem State.resetWith_st (c : Config) (d : Device) (m : Memory) : (State.resetWith c d m).st = .await := rfl
@[simp] theorem State.resetWith_ph (c : Config) (d : Device) (m : Memory) : (State.resetWith c d m).ph = 0 := rfl
@[simp] theorem State.resetWith_sel (c : Config) (d : Device) (m : Memory) : (State.resetWith c d m).sel = false := rfl
@[simp] theorem State.resetWith_buf0 (c : Config) (d : Device) (m : Memory) :
    (State.resetWith c d m).buf0 = List.replicate c.lineCap 0 := rfl
@[simp] theorem State.resetWith_buf1 (c : Config) (d : Device) (m : Memory) :
    (State.resetWith c d m).buf1 = List.replicate c.lineCap 0 := rfl
@[simp] theorem State.resetWith_len0 (c : Config) (d : Device) (m : Memory) : (State.resetWith c d m).len0 = 0 := rfl
@[simp] theorem State.resetWith_len1 (c : Config) (d : Device) (m : Memory) : (State.resetWith c d m).len1 = 0 := rfl
@[simp] theorem State.resetWith_ext (c : Config) (d : Device) (m : Memory) : (State.resetWith c d m).ext = 0 := rfl
@[simp] theorem State.resetWith_nextAddr (c : Config) (d : Device) (m : Memory) :
    (State.resetWith c d m).nextAddr = none := rfl
@[simp] theorem State.resetWith_latch (c : Config) (d : Device) (m : Memory) :
    (State.resetWith c d m).latch = { rc := 0, ra := 0, rt := 0, rd := [], cs := 0 } := rfl
@[simp] theorem State.resetWith_lin (c : Config) (d : Device) (m : Memory) : (State.resetWith c d m).lin = 0 := rfl
@[simp] theorem State.resetWith_w (c : Config) (d : Device) (m : Memory) : (State.resetWith c d m).w = 0 := rfl
@[simp] theorem State.resetWith_wl (c : Config) (d : Device) (m : Memory) : (State.resetWith c d m).wl = 0 := rfl
@[simp] theorem State.resetWith_path (c : Config) (d : Device) (m : Memory) :
    (State.resetWith c d m).path = .normal := rfl
@[simp] theorem State.resetWith_ackOk (c : Config) (d : Device) (m : Memory) :
    (State.resetWith c d m).ackOk = false := rfl
@[simp] theorem State.resetWith_verdict (c : Config) (d : Device) (m : Memory) :
    (State.resetWith c d m).verdict = .okRecord := rfl
@[simp] theorem State.resetWith_scratch (c : Config) (d : Device) (m : Memory) :
    (State.resetWith c d m).scratch = List.replicate (2 * c.eraseWords.toNat) 0 := rfl
@[simp] theorem State.resetWith_cfg (c : Config) (d : Device) (m : Memory) : (State.resetWith c d m).cfg = c := rfl
@[simp] theorem State.resetWith_rx (c : Config) (d : Device) (m : Memory) : (State.resetWith c d m).rx = [] := rfl
@[simp] theorem State.resetWith_txReady (c : Config) (d : Device) (m : Memory) :
    (State.resetWith c d m).txReady = true := rfl
@[simp] theorem State.resetWith_flDone (c : Config) (d : Device) (m : Memory) :
    (State.resetWith c d m).flDone = true := rfl
@[simp] theorem State.resetWith_rst (c : Config) (d : Device) (m : Memory) : (State.resetWith c d m).rst = false := rfl
@[simp] theorem State.resetWith_device (c : Config) (d : Device) (m : Memory) :
    (State.resetWith c d m).device = d := rfl
@[simp] theorem State.resetWith_flash (c : Config) (d : Device) (m : Memory) : (State.resetWith c d m).flash = m := rfl
@[simp] theorem State.resetWith_free (c : Config) (d : Device) (m : Memory) : (State.resetWith c d m).free = 0 := rfl
@[simp] theorem State.resetWith_trace (c : Config) (d : Device) (m : Memory) : (State.resetWith c d m).trace = [] := rfl

/-! ### State.takeReset -/

@[simp] theorem State.takeReset_st : s.takeReset.st = .await := rfl
@[simp] theorem State.takeReset_ph : s.takeReset.ph = 0 := rfl
@[simp] theorem State.takeReset_sel : s.takeReset.sel = false := rfl
@[simp] theorem State.takeReset_buf0 : s.takeReset.buf0 = List.replicate s.cfg.lineCap 0 := rfl
@[simp] theorem State.takeReset_buf1 : s.takeReset.buf1 = List.replicate s.cfg.lineCap 0 := rfl
@[simp] theorem State.takeReset_len0 : s.takeReset.len0 = 0 := rfl
@[simp] theorem State.takeReset_len1 : s.takeReset.len1 = 0 := rfl
@[simp] theorem State.takeReset_ext : s.takeReset.ext = 0 := rfl
@[simp] theorem State.takeReset_nextAddr : s.takeReset.nextAddr = none := rfl
@[simp] theorem State.takeReset_latch : s.takeReset.latch = { rc := 0, ra := 0, rt := 0, rd := [], cs := 0 } := rfl
@[simp] theorem State.takeReset_lin : s.takeReset.lin = 0 := rfl
@[simp] theorem State.takeReset_w : s.takeReset.w = 0 := rfl
@[simp] theorem State.takeReset_wl : s.takeReset.wl = 0 := rfl
@[simp] theorem State.takeReset_path : s.takeReset.path = .normal := rfl
@[simp] theorem State.takeReset_ackOk : s.takeReset.ackOk = false := rfl
@[simp] theorem State.takeReset_verdict : s.takeReset.verdict = .okRecord := rfl
@[simp] theorem State.takeReset_scratch : s.takeReset.scratch = List.replicate (2 * s.cfg.eraseWords.toNat) 0 := rfl
@[simp] theorem State.takeReset_cfg : s.takeReset.cfg = s.cfg := rfl
@[simp] theorem State.takeReset_rx : s.takeReset.rx = s.rx := rfl
@[simp] theorem State.takeReset_txReady : s.takeReset.txReady = s.txReady := rfl
@[simp] theorem State.takeReset_flDone : s.takeReset.flDone = s.flDone := rfl
@[simp] theorem State.takeReset_rst : s.takeReset.rst = false := rfl
@[simp] theorem State.takeReset_device : s.takeReset.device = s.device := rfl
@[simp] theorem State.takeReset_flash : s.takeReset.flash = s.flash := rfl
@[simp] theorem State.takeReset_free : s.takeReset.free = s.free := rfl
@[simp] theorem State.takeReset_trace : s.takeReset.trace = .rst :: s.trace := rfl

end Sys2Proof.Machine
end

