-- ==== Sys2Proof/Laws/Ops.lean ====
section
/-! SUPPORT. Inversion lemmas: what each shared operation, each meaning and each step can do when it answers a next
state. Later proofs cite them and do not unfold the step. -/

namespace Sys2Proof.Machine

variable {s t : State}

/-! ### The flash of a state -/

theorem State.flashErase_flash_wf (wa : Word) (h : s.flash.wf = true) : (s.flashErase wa).flash.wf = true := by
  unfold State.flashErase
  split
  · exact Memory.eraseUnit_wf _ _ _ h
  · exact h

theorem State.flashWrite_flash_wf (wa : Word) (d : List Byte) (n : Nat) (h : s.flash.wf = true) :
    (s.flashWrite wa d n).flash.wf = true := by
  unfold State.flashWrite
  split
  · exact Memory.writeBytes_wf _ _ _ h
  · exact h

/-- The reference flash after FlashErase(wa) (20_memory.md R58). -/
theorem State.flashErase_read (wa : Word) (j : Nat) (hd : s.device = .reference) :
    (s.flashErase wa).flash.read j =
      if 2 * (wa.toNat - wa.toNat % s.cfg.eraseWords.toNat) ≤ j ∧
        j < 2 * (wa.toNat - wa.toNat % s.cfg.eraseWords.toNat + s.cfg.eraseWords.toNat)
      then Memory.blank else s.flash.read j := by
  simp only [State.flashErase, hd]
  exact Memory.read_eraseUnit _ _ _ _

/-- The reference flash after FlashWrite(wa, d, n) (R58). -/
theorem State.flashWrite_read (wa : Word) (d : List Byte) (n j : Nat) (hd : s.device = .reference)
    (hw : s.flash.wf = true) :
    (s.flashWrite wa d n).flash.read j =
      if 2 * wa.toNat ≤ j ∧ j < 2 * wa.toNat + (d.take n).length then
        (d.take n).getD (j - 2 * wa.toNat) Memory.blank
      else s.flash.read j := by
  simp only [State.flashWrite, hd]
  exact Memory.read_writeBytes _ _ _ _ hw

@[simp] theorem freeBytes_length (k n : Nat) : (freeBytes k n).length = n := by
  induction n generalizing k with
  | zero => rfl
  | succ n ih => simp [freeBytes, ih]

@[simp] theorem State.flashAnswer_length (s : State) (wa : Word) (n : Nat) : (s.flashAnswer wa n).length = n := by
  unfold State.flashAnswer
  split <;> simp

/-! ### The merge (43_flash_reconcile.md R128) -/

@[simp] theorem mergeAt_length (buf : List Byte) (k : Nat) (d : List Byte) : (mergeAt buf k d).length = buf.length := by
  induction d generalizing buf k with
  | nil => rfl
  | cons d ds ih => simp [mergeAt, ih]

/-- A byte of the merged buffer: the payload's inside its range, the old one outside. -/
theorem mergeAt_getD (v : Byte) (d : List Byte) :
    ∀ (buf : List Byte) (k i : Nat), k + d.length ≤ buf.length →
      (mergeAt buf k d).getD i v = if k ≤ i ∧ i < k + d.length then d.getD (i - k) v else buf.getD i v := by
  induction d with
  | nil => intro buf k i _; rw [if_neg (by simp)]; rfl
  | cons b ds ih =>
    intro buf k i h
    simp only [List.length_cons] at h
    rw [mergeAt, ih _ _ _ (by simp; omega)]
    by_cases h1 : k + 1 ≤ i ∧ i < k + 1 + ds.length
    · rw [if_pos h1, if_pos (by simp; omega), show i - k = (i - (k + 1)) + 1 by omega, List.getD_cons_succ]
    · rw [if_neg h1]
      by_cases h2 : i = k
      · subst h2
        rw [if_pos (by simp)]
        simp [List.getD, show i < buf.length by omega]
      · rw [if_neg (by simp; omega)]
        simp [List.getD, List.getElem?_set_ne (Ne.symm h2)]

/-! ### Transactions -/

theorem State.send_next {b : Byte} {k : State → State} (h : s.send b k = .next t) :
    (s.txReady = true ∧ t = k (s.emit (.tx b))) ∨ (s.txReady = false ∧ t = s) := by
  unfold State.send at h
  split at h
  · rename_i hr; cases h; exact .inl ⟨hr, rfl⟩
  · rename_i hr; cases h; exact .inr ⟨by simpa using hr, rfl⟩

theorem State.command_next {k : State → State} (h : s.command k = .next t) :
    (s.flDone = true ∧ t = k s) ∨ (s.flDone = false ∧ t = s) := by
  unfold State.command at h
  split at h
  · rename_i hr; cases h; exact .inl ⟨hr, rfl⟩
  · rename_i hr; cases h; exact .inr ⟨by simpa using hr, rfl⟩

/-! ### Meanings -/

/-- DATA, once its addresses are latched (R123-R125). -/
theorem State.chooseWrite_next (h : s.chooseWrite = .next t) :
    (s.cfg.eraseWords = s.cfg.writeWords ∧ t = s.takePath .normal .write) ∨
    (s.cfg.eraseWords ≠ s.cfg.writeWords ∧ ∃ u, s.cfg.sharedUnit = some u ∧
      meetsUnit u s.cfg.eraseWords.toNat s.w s.wl = true ∧ insideUnit u s.cfg.eraseWords.toNat s.w s.wl = true ∧
      t = s.takePath .rmw .erase) ∨
    (s.cfg.eraseWords ≠ s.cfg.writeWords ∧
      (∀ u, s.cfg.sharedUnit = some u → meetsUnit u s.cfg.eraseWords.toNat s.w s.wl = false) ∧
      t = s.normalPath) := by
  unfold State.chooseWrite at h
  split at h
  · rename_i he; cases h; exact .inl ⟨he, rfl⟩
  · rename_i he
    split at h
    · rename_i hu; cases h; exact .inr (.inr ⟨he, by simp [hu], rfl⟩)
    · rename_i u hu
      split at h
      · rename_i hm
        split at h
        · rename_i hi; cases h; exact .inr (.inl ⟨he, u, hu, hm, hi, rfl⟩)
        · cases h
      · rename_i hm
        cases h
        refine .inr (.inr ⟨he, ?_, rfl⟩)
        intro u' hu'
        rw [hu] at hu'
        cases hu'
        simpa using hm

/-- The normal path (R125). -/
theorem State.normalPath_cases (s : State) :
    (eraseNeeded s.cfg.eraseWords.toNat s.w s.nextAddr = true ∧ s.normalPath = s.takePath .normal .erase) ∨
    (eraseNeeded s.cfg.eraseWords.toNat s.w s.nextAddr = false ∧ s.normalPath = s.takePath .normal .write) := by
  unfold State.normalPath
  split
  · exact .inl ⟨‹_›, rfl⟩
  · rename_i h; exact .inr ⟨by simpa using h, rfl⟩

/-- DATA (R109). -/
theorem execData_next {f : Fields} (h : execData f s = .next t) :
    (f.rc = 0#8 ∧ t = s.goto .acknowledge) ∨
    (f.rc ≠ 0#8 ∧ overlapsLoader s.cfg (s.latchAddresses f).w (s.latchAddresses f).wl = true ∧
      t = (s.latchAddresses f).goto .acknowledge) ∨
    (f.rc ≠ 0#8 ∧ overlapsLoader s.cfg (s.latchAddresses f).w (s.latchAddresses f).wl = false ∧
      (s.latchAddresses f).chooseWrite = .next t) := by
  unfold execData at h
  split at h
  · rename_i hr; cases h; exact .inl ⟨hr, rfl⟩
  · rename_i hr
    simp only at h
    split at h
    · rename_i ho; cases h; exact .inr (.inl ⟨hr, ho, rfl⟩)
    · rename_i ho; exact .inr (.inr ⟨hr, by simpa using ho, h⟩)

/-- The meaning of any operation, by its format and its kind. -/
theorem exec_next {i : Instr} (h : exec i s = .next t) :
    (∃ body e, i = .record body ∧ parse (Byte.colon :: body) = .error e ∧ t = s.reject (Verdict.ofReject e)) ∨
    (∃ body r, i = .record body ∧ parse (Byte.colon :: body) = .ok r ∧ t = s.acceptRecord r) ∨
    (i.format = .lineC0 ∧ (∀ body, i ≠ .record body) ∧ t = s.acceptNonrecord) ∨
    (∃ f, i = .data f ∧ execData f s = .next t) ∨
    (∃ f, i = .eof f ∧ t = s.goto .resetting) ∨
    (∃ ra hi lo cs, i = .extaddr ra hi lo cs ∧
      t = { s with ext := hi.setWidth 16 <<< 8 ||| lo.setWidth 16 }.goto .acknowledge) ∨
    (i.format = .recordTT ∧ (∀ f, i ≠ .data f) ∧ (∀ f, i ≠ .eof f) ∧ (∀ ra hi lo cs, i ≠ .extaddr ra hi lo cs) ∧
      t = s.goto .acknowledge) := by
  cases i
  case record body =>
    simp only [exec, execRecord] at h
    split at h
    · cases h; exact .inl ⟨_, _, rfl, ‹_›, rfl⟩
    · cases h; exact .inr (.inl ⟨_, _, rfl, ‹_›, rfl⟩)
  case data f => exact .inr (.inr (.inr (.inl ⟨f, rfl, h⟩)))
  case eof f => cases h; exact .inr (.inr (.inr (.inr (.inl ⟨f, rfl, rfl⟩))))
  case extaddr ra hi lo cs => cases h; exact .inr (.inr (.inr (.inr (.inr (.inl ⟨_, _, _, _, rfl, rfl⟩)))))
  case ignored02 | ignored03 | ignored05 | ignored06to07 | ignored08to0F | ignored10to1F | ignored20to3F
      | ignored40to7F | ignored80toFF =>
    cases h
    exact .inr (.inr (.inr (.inr (.inr (.inr ⟨rfl, by simp, by simp, by simp, rfl⟩)))))
  all_goals (cases h; exact .inr (.inr (.inl ⟨rfl, by simp, rfl⟩)))

/-! ### The actions of the states -/

/-- AWAIT (40_line_receive.md R80-R84). -/
theorem stepAwait_next (h : stepAwait s = .next t) :
    (s.ph = 0 ∧ s.rx = [] ∧ t = s) ∨
    (∃ b rest, s.ph = 0 ∧ s.rx = b :: rest ∧ t = (s.storeByte b rest).afterByte b) ∨
    (s.ph ≠ 0 ∧ s.txReady = true ∧ t = (s.emit (.tx Byte.xoff)).goto .validate) ∨
    (s.ph ≠ 0 ∧ s.txReady = false ∧ t = s) := by
  unfold stepAwait at h
  split at h
  · rename_i hp
    split at h
    · cases h; exact .inl ⟨hp, ‹_›, rfl⟩
    · cases h; exact .inr (.inl ⟨_, _, hp, ‹_›, rfl⟩)
  · rename_i hp
    rcases State.send_next h with ⟨hr, rfl⟩ | ⟨hr, rfl⟩
    · exact .inr (.inr (.inl ⟨hp, hr, rfl⟩))
    · exact .inr (.inr (.inr ⟨hp, hr, rfl⟩))

/-- VALIDATE (R87, 41_record_validate.md R95). -/
theorem stepValidate_next (h : stepValidate s = .next t) :
    (s.pairDiffers = true ∧ t = s.reject .pairMismatch) ∨
    (s.pairDiffers = false ∧ ∃ i, fetchLine s = .ok i ∧ exec i s = .next t) := by
  unfold stepValidate at h
  split at h
  · cases h; exact .inl ⟨‹_›, rfl⟩
  · rename_i hp
    split at h
    · exact .inr ⟨by simpa using hp, _, ‹_›, h⟩
    · cases h

/-- DISPATCH (42_record_dispatch.md R107). -/
theorem stepDispatch_next (h : stepDispatch s = .next t) : ∃ i, fetchRecord s = .ok i ∧ exec i s = .next t := by
  unfold stepDispatch at h
  split at h
  · exact ⟨_, ‹_›, h⟩
  · cases h

/-- ERASE (43_flash_reconcile.md R127, R128). -/
theorem stepErase_next (h : stepErase s = .next t) :
    (s.flDone = false ∧ t = s) ∨
    (s.path = .normal ∧ s.flDone = true ∧ t = (s.flashErase s.w).goto .write) ∨
    (∃ u, s.path = .rmw ∧ s.cfg.sharedUnit = some u ∧ s.ph = 0 ∧ s.flDone = true ∧
      t = (s.flashReadScratch u (2 * s.cfg.eraseWords.toNat)).nextPhase) ∨
    (∃ u, s.path = .rmw ∧ s.cfg.sharedUnit = some u ∧ s.ph = 1 ∧ t = (s.mergePayload u).nextPhase) ∨
    (∃ u, s.path = .rmw ∧ s.cfg.sharedUnit = some u ∧ s.ph ≠ 0 ∧ s.ph ≠ 1 ∧ s.flDone = true ∧
      t = (s.flashErase u).goto .write) := by
  unfold stepErase at h
  split at h
  · rcases State.command_next h with ⟨hd, rfl⟩ | ⟨hd, rfl⟩
    · exact .inr (.inl ⟨‹_›, hd, rfl⟩)
    · exact .inl ⟨hd, rfl⟩
  · rename_i u hp hu
    unfold eraseRmw at h
    split at h
    · rename_i h0
      rcases State.command_next h with ⟨hd, rfl⟩ | ⟨hd, rfl⟩
      · exact .inr (.inr (.inl ⟨u, hp, hu, h0, hd, rfl⟩))
      · exact .inl ⟨hd, rfl⟩
    · rename_i h0
      split at h
      · rename_i h1; cases h; exact .inr (.inr (.inr (.inl ⟨u, hp, hu, h1, rfl⟩)))
      · rename_i h1
        rcases State.command_next h with ⟨hd, rfl⟩ | ⟨hd, rfl⟩
        · exact .inr (.inr (.inr (.inr ⟨u, hp, hu, h0, h1, hd, rfl⟩)))
        · exact .inl ⟨hd, rfl⟩
  · cases h

/-- WRITE (R128-R130). -/
theorem stepWrite_next (h : stepWrite s = .next t) :
    (s.flDone = false ∧ t = s) ∨
    (s.path = .normal ∧ s.flDone = true ∧ t = (s.flashWrite s.w s.latch.rd s.latch.rc.toNat).wrote) ∨
    (∃ u, s.path = .rmw ∧ s.cfg.sharedUnit = some u ∧ s.flDone = true ∧
      t = (s.flashWrite u s.scratch (2 * s.cfg.eraseWords.toNat)).wrote) := by
  unfold stepWrite at h
  split at h
  · rcases State.command_next h with ⟨hd, rfl⟩ | ⟨hd, rfl⟩
    · exact .inr (.inl ⟨‹_›, hd, rfl⟩)
    · exact .inl ⟨hd, rfl⟩
  · rename_i u hp hu
    rcases State.command_next h with ⟨hd, rfl⟩ | ⟨hd, rfl⟩
    · exact .inr (.inr ⟨u, hp, hu, hd, rfl⟩)
    · exact .inl ⟨hd, rfl⟩
  · cases h

/-- ACKNOWLEDGE (40_line_receive.md R89). -/
theorem stepAcknowledge_next (h : stepAcknowledge s = .next t) :
    (s.txReady = false ∧ t = s) ∨
    (s.txReady = true ∧ s.ph = 0 ∧ s.ackOk = true ∧ t = (s.emit (.tx Byte.ack)).nextPhase) ∨
    (s.txReady = true ∧ ¬(s.ph = 0 ∧ s.ackOk = true) ∧ t = (s.emit (.tx Byte.xon)).clearLines.goto .await) := by
  unfold stepAcknowledge at h
  split at h
  · rename_i hc
    rcases State.send_next h with ⟨hr, rfl⟩ | ⟨hr, rfl⟩
    · exact .inr (.inl ⟨hr, hc.1, hc.2, rfl⟩)
    · exact .inl ⟨hr, rfl⟩
  · rename_i hc
    rcases State.send_next h with ⟨hr, rfl⟩ | ⟨hr, rfl⟩
    · exact .inr (.inr ⟨hr, hc, rfl⟩)
    · exact .inl ⟨hr, rfl⟩

/-- RESETTING (42_record_dispatch.md R111, R114). -/
theorem stepResetting_next (h : stepResetting s = .next t) :
    t = s ∨
    (∃ b, (resettingOps s.cfg)[s.ph]? = some (.tx b) ∧ s.txReady = true ∧ t = (s.emit (.tx b)).nextPhase) ∨
    (∃ e, (resettingOps s.cfg)[s.ph]? = some e ∧ (∀ b, e ≠ .tx b) ∧ t = (s.emit e).nextPhase) := by
  unfold stepResetting at h
  split at h
  · rcases State.send_next h with ⟨hr, rfl⟩ | ⟨hr, rfl⟩
    · exact .inr (.inl ⟨_, ‹_›, hr, rfl⟩)
    · exact .inl rfl
  · rename_i e hne he
    cases h
    exact .inr (.inr ⟨e, he, fun b hb => hne b hb, rfl⟩)
  · cases h; exact .inl rfl

/-- A step (10_state.md R43, R44). -/
theorem step_next (h : step s = .next t) :
    configLegal s.cfg = true ∧ ((s.rst = true ∧ t = s.takeReset) ∨ (s.rst = false ∧ stepState s = .next t)) := by
  unfold step stepBlock at h
  split at h
  · cases h
  · rename_i hc
    split at h
    · rename_i hr; cases h; exact ⟨by simpa using hc, .inl ⟨hr, rfl⟩⟩
    · rename_i hr; exact ⟨by simpa using hc, .inr ⟨by simpa using hr, h⟩⟩

/-- A step of a running block is the action of its state. -/
theorem step_of_running (hl : configLegal s.cfg = true) (hr : s.rst = false) : step s = stepState s := by
  simp [step, stepBlock, hl, hr]

end Sys2Proof.Machine
end

