-- ==== Sys2Proof/Laws/Parse.lean ====
section
/-! SUPPORT. What the hex decoding, validation and the selection of an operation can answer, each said once. -/

namespace Sys2Proof

/-- A hex pair is a byte exactly if both characters are digits (30_encoding.md R66). -/
theorem hexbyte_eq_some (cHi cLo b : Byte) :
    hexbyte cHi cLo = some b ↔
      ∃ h l, hexval cHi = some h ∧ hexval cLo = some l ∧ h.setWidth 8 <<< 4 ||| l.setWidth 8 = b := by
  unfold hexbyte
  split
  · rename_i h l hh hl; simp [hh, hl]
  · rename_i hne
    constructor
    · intro h; cases h
    · rintro ⟨h, l, hh, hl, -⟩; exact absurd hl (hne h l hh)

/-- The number of two nibbles (R66). -/
theorem nibbles_toNat (h l : BitVec 4) : (h.setWidth 8 <<< 4 ||| l.setWidth 8 : Byte).toNat = 16 * h.toNat + l.toNat := by
  revert h l; decide

theorem hexBytes_length (cs bs : List Byte) (h : hexBytes cs = some bs) : cs.length = 2 * bs.length := by
  rw [← hexText_of_hexBytes cs bs h]; simp

/-- A character that is no uppercase hex digit spoils the whole run (41_record_validate.md R101). -/
theorem hexBytes_none (cs : List Byte) (h : ∃ d ∈ cs, hexval d = none) : hexBytes cs = none := by
  cases hb : hexBytes cs with
  | none => rfl
  | some bs =>
    obtain ⟨d, hd, hn⟩ := h
    rw [← hexText_of_hexBytes cs bs hb] at hd
    exfalso
    clear hb
    induction bs with
    | nil => cases hd
    | cons b bs ih =>
      simp only [hexText, hex2, List.cons_append, List.nil_append, List.mem_cons] at hd
      rcases hd with rfl | rfl | hd
      · rw [hexval_hexDigit] at hn; cases hn
      · rw [hexval_hexDigit] at hn; cases hn
      · exact ih hd

/-- Two bytes as a 16-bit value, high byte first (R69). -/
theorem half_eq_ofNat (hi lo : Byte) :
    (hi.setWidth 16 <<< 8 ||| lo.setWidth 16 : Half) = BitVec.ofNat 16 (256 * hi.toNat + lo.toNat) := by
  apply BitVec.eq_of_toNat_eq
  rw [BitVec.toNat_or, BitVec.toNat_shiftLeft, BitVec.toNat_ofNat, BitVec.toNat_setWidth, BitVec.toNat_setWidth]
  have h1 := hi.isLt
  have h2 := lo.isLt
  rw [Nat.mod_eq_of_lt (by omega : hi.toNat < 2 ^ 16), Nat.mod_eq_of_lt (by omega : lo.toNat < 2 ^ 16),
    Nat.shiftLeft_eq, Nat.mod_eq_of_lt (by omega), ← Nat.shiftLeft_eq, ← Nat.shiftLeft_add_eq_or_of_lt (by omega),
    Nat.shiftLeft_eq]
  omega

/-- The bytes of a 16-bit value made of two bytes. -/
theorem half_bytes (hi lo : Byte) :
    (hi.setWidth 16 <<< 8 ||| lo.setWidth 16 : Half).extractLsb' 8 8 = hi ∧
    (hi.setWidth 16 <<< 8 ||| lo.setWidth 16 : Half).extractLsb' 0 8 = lo := by
  constructor <;> apply BitVec.eq_of_getLsbD_eq <;> intro i hi'
  · simp [hi', show 8 + i < 16 by omega]
  · simp [hi', show i < 16 by omega]

theorem take_append_getD (l : List Byte) (n : Nat) (v : Byte) (h : l.length = n + 1) : l.take n ++ [l.getD n v] = l := by
  have hn : n < l.length := by omega
  rw [List.getD_eq_getElem _ _ hn, ← List.take_succ_eq_append_getElem hn, ← h, List.take_length]

/-- What validation accepts, and the record it gives: the characters after the start code are the hex text of a
well-formed record (41_record_validate.md R95-R104). -/
theorem parse_ok_iff (c : Byte) (body : List Byte) (r : Record) :
    parse (c :: body) = .ok r ↔ r.wf = true ∧ body = hexText (r.body ++ [r.cs]) := by
  constructor
  · intro h
    unfold parse at h
    split at h
    · rename_i c1 c2 rest heq
      cases heq
      split at h
      · cases h
      · rename_i rc hrc
        split at h
        · cases h
        · rename_i hlen
          split at h
          · cases h
          · rename_i hi lo rt tail hb
            simp only at h
            split at h
            · cases h
            · rename_i hck
              split at h
              · cases h
              · rename_i hx
                cases h
                have hl := hexBytes_length _ _ hb
                simp only [ne_eq, List.length_cons, not_not] at hlen hl
                have htl : tail.length = rc.toNat + 1 := by omega
                constructor
                · simp only [Record.wf, Bool.and_eq_true, beq_iff_eq, Bool.or_eq_true, bne_iff_ne]
                  refine ⟨⟨by simp [htl], by simpa using hck⟩, ?_⟩
                  simp only [not_and_or, not_not] at hx
                  exact hx
                · rw [Record.body, (half_bytes hi lo).1, (half_bytes hi lo).2, ← hexText_of_hexBytes _ _ hb]
                  simp only [List.cons_append, take_append_getD tail _ 0#8 htl, hexText, hex2_of_hexbyte _ _ _ hrc]
                  rfl
          · cases h
    · cases h
  · rintro ⟨hwf, rfl⟩
    simp only [Record.wf, Bool.and_eq_true, beq_iff_eq, Bool.or_eq_true, bne_iff_ne] at hwf
    obtain ⟨⟨hl, hck⟩, hx⟩ := hwf
    have e : hexText (r.body ++ [r.cs]) = hexDigit (r.rc.extractLsb' 4 4) :: hexDigit (r.rc.extractLsb' 0 4) ::
        hexText (r.ra.extractLsb' 8 8 :: r.ra.extractLsb' 0 8 :: r.rt :: (r.rd ++ [r.cs])) := rfl
    rw [e, parse, hexbyte_hexDigits]
    simp only
    rw [if_neg (by simp [hl]; omega), hexBytes_hexText]
    simp only
    have t1 : (r.rd ++ [r.cs]).take r.rc.toNat = r.rd := by rw [← hl]; simp
    have t2 : (r.rd ++ [r.cs]).getD r.rc.toNat 0#8 = r.cs := by rw [← hl]; simp [List.getD]
    rw [t1, t2, half_of_bytes, if_neg (by simp [hck]), if_neg (by rintro ⟨a, b⟩; rcases hx with h | h <;> contradiction)]

/-- The payload of an accepted record has `rc` bytes (30_encoding.md R68). -/
theorem parse_ok_length {c : Byte} {body : List Byte} {r : Record} (h : parse (c :: body) = .ok r) :
    r.rd.length = r.rc.toNat := by
  have := ((parse_ok_iff _ _ _).1 h).1
  simp only [Record.wf, Bool.and_eq_true, beq_iff_eq] at this
  exact this.1.1

/-- An accepted record of type 0x04 has two payload bytes (41_record_validate.md R103). -/
theorem parse_ok_extaddr {c : Byte} {body : List Byte} {r : Record} (h : parse (c :: body) = .ok r)
    (h4 : r.rt = 0x04#8) : ∃ hi lo, r.rc = 2#8 ∧ r.rd = [hi, lo] := by
  have hl := parse_ok_length h
  have := ((parse_ok_iff _ _ _).1 h).1
  simp only [Record.wf, Bool.and_eq_true, Bool.or_eq_true, beq_iff_eq, bne_iff_ne, h4, ne_eq, not_true,
    false_or] at this
  rw [this.2] at hl
  obtain ⟨hi, lo, hab⟩ := List.length_eq_two.1 hl
  exact ⟨hi, lo, this.2, hab⟩

/-- The content of a record line starts with its start code (30_encoding.md R63). -/
theorem content_of_colon (l : List Byte) (h : l.head? = some Byte.colon) : ∃ body, content l = Byte.colon :: body := by
  cases l with
  | nil => cases h
  | cons c cs =>
    cases h
    unfold content
    split
    · cases cs with
      | nil => rename_i h; exact absurd h (by decide)
      | cons d ds => exact ⟨_, rfl⟩
    · exact ⟨_, rfl⟩

/-- A line that does not start with `:` selects a NONRECORD operation (R64). -/
theorem ofFirstByte_ne_colon (c : Byte) (l : List Byte) (h : c ≠ Byte.colon) :
    (ofFirstByte c l).format = .lineC0 ∧ ∀ body, ofFirstByte c l ≠ .record body := by
  unfold ofFirstByte
  repeat' split
  all_goals first
    | exact absurd (show c = Byte.colon from ‹c = 0x3A#8›) h
    | exact ⟨rfl, by simp⟩

/-- A line that starts with `:` selects RECORD (R64). -/
theorem ofFirstByte_colon (l : List Byte) : ofFirstByte Byte.colon l = .record ((content l).drop 1) := rfl

/-- The operation of a record, by its type (R70). -/
theorem ofRecord_ok {r : Record} {i : Instr} (h : ofRecord r = .ok i) :
    (r.rt = 0x00#8 ∧ i = .data r.fields) ∨
    (r.rt = 0x01#8 ∧ i = .eof r.fields) ∨
    (r.rt = 0x04#8 ∧ ∃ hi lo, r.rd = [hi, lo] ∧ i = .extaddr r.ra hi lo r.cs) ∨
    (r.rt ≠ 0x00#8 ∧ r.rt ≠ 0x01#8 ∧ r.rt ≠ 0x04#8 ∧ i.format = .recordTT ∧ (∀ f, i ≠ .data f) ∧ (∀ f, i ≠ .eof f) ∧
      ∀ ra hi lo cs, i ≠ .extaddr ra hi lo cs) := by
  unfold ofRecord at h
  split at h
  · cases h; exact .inl ⟨‹_›, rfl⟩
  rename_i h0
  split at h
  · cases h; exact .inr (.inl ⟨‹_›, rfl⟩)
  rename_i h1
  by_cases h4 : r.rt = 0x04#8
  · rw [if_neg (by rw [h4]; decide), if_neg (by rw [h4]; decide), if_pos h4] at h
    split at h
    · split at h
      · cases h; exact .inr (.inr (.inl ⟨h4, _, _, ‹_›, rfl⟩))
      · cases h
    · cases h
  · refine .inr (.inr (.inr ⟨h0, h1, h4, ?_⟩))
    repeat' split at h
    all_goals (cases h; exact ⟨rfl, by simp, by simp, by simp⟩)

end Sys2Proof
end

