-- ==== Sys2Proof/Laws/PerInstr.lean ====
section
/-! SUPPORT. Per-instruction families: `TableRow` says that the selecting byte of a well-formed operation lies in the
operation's row of spec/opcode_table.json (30_encoding.md R77). -/

namespace Sys2Proof.Laws.TableRow

/-- The selecting byte of the operation lies in its row, and the row is one of its format's. -/
def Statement (i : Instr) : Prop :=
  i.wf = true → i.row.admits i.selector = true ∧ i.row ∈ (if i.format = .lineC0 then lineRows else typeRows)

theorem record (body : List Byte) : Statement (.record body) :=
  fun _ => ⟨by simp [Row.admits, Instr.row, Instr.selector, Byte.colon], by simp [Instr.row, Instr.format, lineRows]⟩

theorem nonrecord00to1F (c : Byte) : Statement (.nonrecord00to1F c) :=
  fun h => ⟨h, by simp [Instr.row, Instr.format, lineRows]⟩

theorem nonrecord20to2F (c : Byte) : Statement (.nonrecord20to2F c) :=
  fun h => ⟨h, by simp [Instr.row, Instr.format, lineRows]⟩

theorem nonrecord30to37 (c : Byte) : Statement (.nonrecord30to37 c) :=
  fun h => ⟨h, by simp [Instr.row, Instr.format, lineRows]⟩

theorem nonrecord38to39 (c : Byte) : Statement (.nonrecord38to39 c) :=
  fun h => ⟨h, by simp [Instr.row, Instr.format, lineRows]⟩

theorem nonrecord3B : Statement .nonrecord3B :=
  fun _ => ⟨by simp [Row.admits, Instr.row, Instr.selector], by simp [Instr.row, Instr.format, lineRows]⟩

theorem nonrecord3Cto3F (c : Byte) : Statement (.nonrecord3Cto3F c) :=
  fun h => ⟨h, by simp [Instr.row, Instr.format, lineRows]⟩

theorem nonrecord40to7F (c : Byte) : Statement (.nonrecord40to7F c) :=
  fun h => ⟨h, by simp [Instr.row, Instr.format, lineRows]⟩

theorem nonrecord80toFF (c : Byte) : Statement (.nonrecord80toFF c) :=
  fun h => ⟨h, by simp [Instr.row, Instr.format, lineRows]⟩

theorem data (f : Fields) : Statement (.data f) :=
  fun _ => ⟨by simp [Row.admits, Instr.row, Instr.selector], by simp [Instr.row, Instr.format, typeRows]⟩

theorem eof (f : Fields) : Statement (.eof f) :=
  fun _ => ⟨by simp [Row.admits, Instr.row, Instr.selector], by simp [Instr.row, Instr.format, typeRows]⟩

theorem extaddr (ra : Half) (hi lo cs : Byte) : Statement (.extaddr ra hi lo cs) :=
  fun _ => ⟨by simp [Row.admits, Instr.row, Instr.selector], by simp [Instr.row, Instr.format, typeRows]⟩

theorem ignored02 (f : Fields) : Statement (.ignored02 f) :=
  fun _ => ⟨by simp [Row.admits, Instr.row, Instr.selector], by simp [Instr.row, Instr.format, typeRows]⟩

theorem ignored03 (f : Fields) : Statement (.ignored03 f) :=
  fun _ => ⟨by simp [Row.admits, Instr.row, Instr.selector], by simp [Instr.row, Instr.format, typeRows]⟩

theorem ignored05 (f : Fields) : Statement (.ignored05 f) :=
  fun _ => ⟨by simp [Row.admits, Instr.row, Instr.selector], by simp [Instr.row, Instr.format, typeRows]⟩

theorem ignored06to07 (rt : Byte) (f : Fields) : Statement (.ignored06to07 rt f) :=
  fun h => ⟨((Bool.and_eq_true _ _).mp h).1, by simp [Instr.row, Instr.format, typeRows]⟩

theorem ignored08to0F (rt : Byte) (f : Fields) : Statement (.ignored08to0F rt f) :=
  fun h => ⟨((Bool.and_eq_true _ _).mp h).1, by simp [Instr.row, Instr.format, typeRows]⟩

theorem ignored10to1F (rt : Byte) (f : Fields) : Statement (.ignored10to1F rt f) :=
  fun h => ⟨((Bool.and_eq_true _ _).mp h).1, by simp [Instr.row, Instr.format, typeRows]⟩

theorem ignored20to3F (rt : Byte) (f : Fields) : Statement (.ignored20to3F rt f) :=
  fun h => ⟨((Bool.and_eq_true _ _).mp h).1, by simp [Instr.row, Instr.format, typeRows]⟩

theorem ignored40to7F (rt : Byte) (f : Fields) : Statement (.ignored40to7F rt f) :=
  fun h => ⟨((Bool.and_eq_true _ _).mp h).1, by simp [Instr.row, Instr.format, typeRows]⟩

theorem ignored80toFF (rt : Byte) (f : Fields) : Statement (.ignored80toFF rt f) :=
  fun h => ⟨((Bool.and_eq_true _ _).mp h).1, by simp [Instr.row, Instr.format, typeRows]⟩

end Sys2Proof.Laws.TableRow
end

