-- ==== Sys2Proof/Laws/Run.lean ====
section
/-! SUPPORT. How `runSteps` chains steps, and that it is the host's `run` of the machine. -/

namespace Sys2Proof.Machine

@[simp] theorem runSteps_zero (s : State) : runSteps 0 s = .next s := rfl

theorem runSteps_succ {s t : State} (k : Nat) (h : step s = .next t) : runSteps (k + 1) s = runSteps k t := by
  rw [runSteps, h]

/-- Two runs one after the other. -/
theorem runSteps_add {s t : State} (j k : Nat) (h : runSteps j s = .next t) : runSteps (j + k) s = runSteps k t := by
  induction j generalizing s with
  | zero => cases h; rw [Nat.zero_add]
  | succ j ih =>
    rw [show j + 1 + k = (j + k) + 1 by omega]
    rw [runSteps] at h
    split at h
    · rename_i u hu
      rw [runSteps_succ _ hu, ih h]
    · cases h
    · cases h

theorem hostRun_succ (M : Host.Core) (k : Nat) (x : M.State) :
    (∀ y, M.step x = .next y → M.run (k + 1) x = M.run k y) ∧
    (∀ r, M.step x = .fault r → M.run (k + 1) x = .fault r) ∧
    (∀ r, M.step x = .refused r → M.run (k + 1) x = .refused r) := by
  refine ⟨?_, ?_, ?_⟩ <;> intro y h <;> simp only [Host.Core.run, h]

theorem runSteps_eq_hostRun (k : Nat) (s : State) : runSteps k s = Host.Core.run Sys2Proof.core k s := by
  induction k generalizing s with
  | zero => rfl
  | succ k ih =>
    have hk := hostRun_succ Sys2Proof.core k s
    rw [runSteps]
    cases h : step s with
    | next t => exact (ih t).trans (hk.1 t h).symm
    | fault r => exact (hk.2.1 r h).symm
    | refused r => exact (hk.2.2 r h).symm

end Sys2Proof.Machine
end

