-- ==== Sys2Proof/Laws/Step.lean ====
section
/-! SUPPORT. Everything one step of a running block can do, said once: `Move`, one constructor per transaction or
internal computation of the rules, and `step_move`. Later proofs take a step apart with `cases step_move hr h`. -/

namespace Sys2Proof.Machine

/-- How a running block goes from `s` to `t` in one step. -/
inductive Move (s t : State) : Prop
  /-- A collaborator does not complete the transaction (10_state.md R39-R41), or RESETTING is over (R114). -/
  | wait (same : t = s)
      (why : (s.st = .await ∧ s.ph = 0 ∧ s.rx = []) ∨ (s.txData ≠ none ∧ s.txReady = false) ∨
        (s.flRequest ≠ none ∧ s.flDone = false) ∨ (s.st = .resetting ∧ (resettingOps s.cfg)[s.ph]? = none))
  | receive (b : Byte) (rest : List Byte) (st : s.st = .await) (ph : s.ph = 0) (rx : s.rx = b :: rest)
      (eq : t = (s.storeByte b rest).afterByte b)
  | xoff (st : s.st = .await) (ph : s.ph ≠ 0) (ready : s.txReady = true)
      (eq : t = (s.emit (.tx Byte.xoff)).goto .validate)
  | mismatch (st : s.st = .validate) (pair : s.pairDiffers = true) (eq : t = s.reject .pairMismatch)
  | nonrecord (c : Byte) (cs : List Byte) (st : s.st = .validate) (pair : s.pairDiffers = false)
      (line : s.line0 = c :: cs) (ne : c ≠ Byte.colon) (eq : t = s.acceptNonrecord)
  | rejected (e : Reject) (st : s.st = .validate) (pair : s.pairDiffers = false)
      (colon : s.line0.head? = some Byte.colon) (parsed : parse (content s.line0) = .error e)
      (eq : t = s.reject (Verdict.ofReject e))
  | accepted (r : Record) (st : s.st = .validate) (pair : s.pairDiffers = false)
      (colon : s.line0.head? = some Byte.colon) (parsed : parse (content s.line0) = .ok r) (eq : t = s.acceptRecord r)
  | data (st : s.st = .dispatch) (rt : s.latch.rt = 0x00#8) (eq : execData s.latch.fields s = .next t)
  | eof (st : s.st = .dispatch) (rt : s.latch.rt = 0x01#8) (eq : t = s.goto .resetting)
  | extaddr (hi lo : Byte) (st : s.st = .dispatch) (rt : s.latch.rt = 0x04#8) (rd : s.latch.rd = [hi, lo])
      (eq : t = { s with ext := hi.setWidth 16 <<< 8 ||| lo.setWidth 16 }.goto .acknowledge)
  | ignored (st : s.st = .dispatch) (ne0 : s.latch.rt ≠ 0x00#8) (ne1 : s.latch.rt ≠ 0x01#8)
      (ne4 : s.latch.rt ≠ 0x04#8) (eq : t = s.goto .acknowledge)
  | erase (st : s.st = .erase) (path : s.path = .normal) (done : s.flDone = true)
      (eq : t = (s.flashErase s.w).goto .write)
  | rmwRead (u : Word) (st : s.st = .erase) (path : s.path = .rmw) (unit : s.cfg.sharedUnit = some u) (ph : s.ph = 0)
      (done : s.flDone = true) (eq : t = (s.flashReadScratch u (2 * s.cfg.eraseWords.toNat)).nextPhase)
  | rmwMerge (u : Word) (st : s.st = .erase) (path : s.path = .rmw) (unit : s.cfg.sharedUnit = some u) (ph : s.ph = 1)
      (eq : t = (s.mergePayload u).nextPhase)
  | rmwErase (u : Word) (st : s.st = .erase) (path : s.path = .rmw) (unit : s.cfg.sharedUnit = some u)
      (ph0 : s.ph ≠ 0) (ph1 : s.ph ≠ 1) (done : s.flDone = true) (eq : t = (s.flashErase u).goto .write)
  | write (st : s.st = .write) (path : s.path = .normal) (done : s.flDone = true)
      (eq : t = (s.flashWrite s.w s.latch.rd s.latch.rc.toNat).wrote)
  | rmwWrite (u : Word) (st : s.st = .write) (path : s.path = .rmw) (unit : s.cfg.sharedUnit = some u)
      (done : s.flDone = true) (eq : t = (s.flashWrite u s.scratch (2 * s.cfg.eraseWords.toNat)).wrote)
  | ack (st : s.st = .acknowledge) (ready : s.txReady = true) (ph : s.ph = 0) (ok : s.ackOk = true)
      (eq : t = (s.emit (.tx Byte.ack)).nextPhase)
  | xon (st : s.st = .acknowledge) (ready : s.txReady = true) (last : ¬(s.ph = 0 ∧ s.ackOk = true))
      (eq : t = (s.emit (.tx Byte.xon)).clearLines.goto .await)
  | resetSend (b : Byte) (st : s.st = .resetting) (op : (resettingOps s.cfg)[s.ph]? = some (.tx b))
      (ready : s.txReady = true) (eq : t = (s.emit (.tx b)).nextPhase)
  | deviceReset (st : s.st = .resetting) (op : (resettingOps s.cfg)[s.ph]? = some .rstreq)
      (eq : t = (s.emit .rstreq).nextPhase)

variable {s t : State}

/-- The transactions of RESETTING are bytes and RSTREQ (42_record_dispatch.md R111). -/
theorem resettingOps_cases {c : Config} {k : Nat} {e : Event} (h : (resettingOps c)[k]? = some e) :
    e = .tx Byte.ack ∨ e = .tx Byte.xon ∨ e = .rstreq := by
  have hm := List.mem_of_getElem? h
  unfold resettingOps at hm
  cases hf : c.eofFinalXon <;> simp [hf] at hm
  · rcases hm with rfl | rfl | rfl | rfl <;> simp
  · rcases hm with rfl | rfl | rfl | rfl | rfl <;> simp

theorem stepAwait_move (hs : s.st = .await) (h : stepAwait s = .next t) : Move s t := by
  rcases stepAwait_next h with ⟨hp, hx, e⟩ | ⟨b, rest, hp, hx, e⟩ | ⟨hp, hr, e⟩ | ⟨hp, hr, e⟩
  · exact .wait e (.inl ⟨hs, hp, hx⟩)
  · exact .receive b rest hs hp hx e
  · exact .xoff hs hp hr e
  · exact .wait e (.inr (.inl ⟨by simp [State.txData, hs, hp], hr⟩))

theorem stepValidate_move (hs : s.st = .validate) (h : stepValidate s = .next t) : Move s t := by
  rcases stepValidate_next h with ⟨hp, e⟩ | ⟨hp, i, hi, h⟩
  · exact .mismatch hs hp e
  cases hl : s.line0 with
  | nil => rw [fetchLine, hl] at hi; cases hi
  | cons c cs =>
    rw [fetchLine, hl] at hi
    cases hi
    by_cases hc : c = Byte.colon
    · subst hc
      obtain ⟨body, hb⟩ := content_of_colon (Byte.colon :: cs) rfl
      rw [ofFirstByte_colon, hb, List.drop_succ_cons, List.drop_zero] at h
      rw [exec, execRecord] at h
      split at h
      · cases h; exact .rejected _ hs hp (by rw [hl]; rfl) (by rw [hl, hb]; assumption) rfl
      · cases h; exact .accepted _ hs hp (by rw [hl]; rfl) (by rw [hl, hb]; assumption) rfl
    · obtain ⟨hf, hn⟩ := ofFirstByte_ne_colon c (c :: cs) hc
      refine .nonrecord c cs hs hp hl hc ?_
      rcases exec_next h with ⟨b, _, e, _⟩ | ⟨b, _, e, _⟩ | ⟨_, _, e⟩ | ⟨_, e, _⟩ | ⟨_, e, _⟩ | ⟨_, _, _, _, e, _⟩ | ⟨e, _⟩
      · exact absurd e (hn b)
      · exact absurd e (hn b)
      · exact e
      all_goals (rw [e] at hf; cases hf)

theorem stepDispatch_move (hs : s.st = .dispatch) (h : stepDispatch s = .next t) : Move s t := by
  obtain ⟨i, hi, h⟩ := stepDispatch_next h
  rcases ofRecord_ok hi with ⟨hr, rfl⟩ | ⟨hr, rfl⟩ | ⟨hr, a, b, hd, rfl⟩ | ⟨h0, h1, h4, hf, hd, he, hx⟩
  · exact .data hs hr h
  · cases h; exact .eof hs hr rfl
  · cases h; exact .extaddr a b hs hr hd rfl
  · refine .ignored hs h0 h1 h4 ?_
    rcases exec_next h with ⟨b, _, e, _⟩ | ⟨b, _, e, _⟩ | ⟨e, _⟩ | ⟨_, e, _⟩ | ⟨_, e, _⟩ | ⟨_, _, _, _, e, _⟩ |
      ⟨_, _, _, _, e⟩
    · rw [e] at hf; cases hf
    · rw [e] at hf; cases hf
    · rw [e] at hf; cases hf
    · exact absurd e (hd _)
    · exact absurd e (he _)
    · exact absurd e (hx _ _ _ _)
    · exact e

theorem stepErase_move (hs : s.st = .erase) (h : stepErase s = .next t) : Move s t := by
  unfold stepErase at h
  split at h
  · rename_i hp
    rcases State.command_next h with ⟨hd, e⟩ | ⟨hd, e⟩
    · exact .erase hs hp hd e
    · exact .wait e (.inr (.inr (.inl ⟨by simp [State.flRequest, hs, hp], hd⟩)))
  · rename_i u hp hu
    unfold eraseRmw at h
    split at h
    · rename_i h0
      rcases State.command_next h with ⟨hd, e⟩ | ⟨hd, e⟩
      · exact .rmwRead u hs hp hu h0 hd e
      · exact .wait e (.inr (.inr (.inl ⟨by simp [State.flRequest, hs, hp, hu, h0], hd⟩)))
    · rename_i h0
      split at h
      · rename_i h1; cases h; exact .rmwMerge u hs hp hu h1 rfl
      · rename_i h1
        rcases State.command_next h with ⟨hd, e⟩ | ⟨hd, e⟩
        · exact .rmwErase u hs hp hu h0 h1 hd e
        · exact .wait e (.inr (.inr (.inl ⟨by simp [State.flRequest, hs, hp, hu, h0, h1], hd⟩)))
  · cases h

theorem stepWrite_move (hs : s.st = .write) (h : stepWrite s = .next t) : Move s t := by
  unfold stepWrite at h
  split at h
  · rename_i hp
    rcases State.command_next h with ⟨hd, e⟩ | ⟨hd, e⟩
    · exact .write hs hp hd e
    · exact .wait e (.inr (.inr (.inl ⟨by simp [State.flRequest, hs, hp], hd⟩)))
  · rename_i u hp hu
    rcases State.command_next h with ⟨hd, e⟩ | ⟨hd, e⟩
    · exact .rmwWrite u hs hp hu hd e
    · exact .wait e (.inr (.inr (.inl ⟨by simp [State.flRequest, hs, hp, hu], hd⟩)))
  · cases h

theorem stepAcknowledge_move (hs : s.st = .acknowledge) (h : stepAcknowledge s = .next t) : Move s t := by
  rcases stepAcknowledge_next h with ⟨hr, e⟩ | ⟨hr, hp, ha, e⟩ | ⟨hr, hl, e⟩
  · refine .wait e (.inr (.inl ⟨?_, hr⟩))
    simp only [State.txData, hs]
    split <;> simp
  · exact .ack hs hr hp ha e
  · exact .xon hs hr hl e

theorem stepResetting_move (hs : s.st = .resetting) (h : stepResetting s = .next t) : Move s t := by
  unfold stepResetting at h
  split at h
  · rename_i b hb
    rcases State.send_next h with ⟨hr, e⟩ | ⟨hr, e⟩
    · exact .resetSend b hs hb hr e
    · exact .wait e (.inr (.inl ⟨by simp [State.txData, hs, hb], hr⟩))
  · rename_i e hne he
    cases h
    rcases resettingOps_cases he with rfl | rfl | rfl
    · exact absurd rfl (hne _)
    · exact absurd rfl (hne _)
    · exact .deviceReset hs he rfl
  · cases h; exact .wait rfl (.inr (.inr (.inr ⟨hs, ‹_›⟩)))

/-- A step of a running block is a move. -/
theorem step_move (hr : s.running) (h : step s = .next t) : Move s t := by
  rw [step_of_running hr.1 hr.2, stepState] at h
  split at h
  · exact stepAwait_move ‹_› h
  · exact stepValidate_move ‹_› h
  · exact stepDispatch_move ‹_› h
  · exact stepErase_move ‹_› h
  · exact stepWrite_move ‹_› h
  · exact stepAcknowledge_move ‹_› h
  · exact stepResetting_move ‹_› h
  · cases h

/-! ### What the larger updates leave alone -/

/-- DATA writes only the sequencer, the path and the addresses (42_record_dispatch.md R109). -/
theorem execData_shape {f : Fields} (h : execData f s = .next t) :
    ∃ x p l w wl, (x = .acknowledge ∨ x = .erase ∨ x = .write) ∧
      t = { s with st := x, ph := 0, path := p, lin := l, w := w, wl := wl } := by
  rcases execData_next h with ⟨_, rfl⟩ | ⟨_, _, rfl⟩ | ⟨_, _, h⟩
  · exact ⟨_, _, _, _, _, .inl rfl, rfl⟩
  · exact ⟨_, _, _, _, _, .inl rfl, rfl⟩
  · rcases State.chooseWrite_next h with ⟨_, rfl⟩ | ⟨_, _, _, _, _, rfl⟩ | ⟨_, _, rfl⟩
    · exact ⟨_, _, _, _, _, .inr (.inr rfl), rfl⟩
    · exact ⟨_, _, _, _, _, .inr (.inl rfl), rfl⟩
    · rcases State.normalPath_cases (s.latchAddresses f) with ⟨_, h⟩ | ⟨_, h⟩ <;> rw [h]
      · exact ⟨_, _, _, _, _, .inr (.inl rfl), rfl⟩
      · exact ⟨_, _, _, _, _, .inr (.inr rfl), rfl⟩

/-- Receiving a byte writes only the line buffers, `sel`, `ph`, RX and the history (40_line_receive.md R80-R84). -/
theorem receive_shape (s : State) (b : Byte) (rest : List Byte) :
    ∃ b0 b1 l0 l1 x p, (s.storeByte b rest).afterByte b =
      { s with buf0 := b0, buf1 := b1, len0 := l0, len1 := l1, sel := x, ph := p, rx := rest,
               trace := .rx b :: s.trace } := by
  unfold State.afterByte
  split
  · split <;> unfold State.storeByte <;> split <;> exact ⟨_, _, _, _, _, _, rfl⟩
  · unfold State.storeByte; split <;> exact ⟨_, _, _, _, _, _, rfl⟩

/-- FlashErase writes only the flash and the history (00_scope.md R17). -/
theorem flashErase_shape (s : State) (a : Word) :
    ∃ m, s.flashErase a = { s with flash := m, trace := .flErase a :: s.trace } := by
  unfold State.flashErase; split <;> exact ⟨_, rfl⟩

/-- FlashWrite writes only the flash and the history (R17). -/
theorem flashWrite_shape (s : State) (a : Word) (d : List Byte) (n : Nat) :
    ∃ m, s.flashWrite a d n = { s with flash := m, trace := .flWrite a d n :: s.trace } := by
  unfold State.flashWrite; split <;> exact ⟨_, rfl⟩

end Sys2Proof.Machine
end

