-- ==== Sys2Proof/Tests/Slice0.lean ====
section
/-! SUPPORT. The model's own tests: ill-formed operations refused, every constructor decoded from bytes written out from
the spec's encoding, a few single steps with results from 95_test_vectors.md and the rules' examples, and for every
statement with hypotheses a witness that meets them. -/

namespace Sys2Proof.Tests

open Sys2Proof.Machine

/-! ### Ill-formed operations -/

/-- `:01000000AA55` is well formed (R102). -/
theorem test_wf_accepts_data : (Instr.data ⟨1, 0, [0xAA], 0x55⟩).wf = true := by decide

theorem test_wf_refuses_cr_in_body : (Instr.record [0x30, 0x0D]).wf = false := by decide

theorem test_wf_refuses_nonrecord00to1F : (Instr.nonrecord00to1F 0x20).wf = false := by decide

theorem test_wf_refuses_nonrecord20to2F : (Instr.nonrecord20to2F 0x30).wf = false := by decide

theorem test_wf_refuses_nonrecord30to37 : (Instr.nonrecord30to37 0x38).wf = false := by decide

theorem test_wf_refuses_nonrecord38to39 : (Instr.nonrecord38to39 0x3A).wf = false := by decide

theorem test_wf_refuses_nonrecord3Cto3F : (Instr.nonrecord3Cto3F 0x3B).wf = false := by decide

theorem test_wf_refuses_nonrecord40to7F : (Instr.nonrecord40to7F 0x80).wf = false := by decide

theorem test_wf_refuses_nonrecord80toFF : (Instr.nonrecord80toFF 0x7F).wf = false := by decide

/-- The payload must have `rc` bytes (R68); the checksum is right. -/
theorem test_wf_refuses_payload_length : (Instr.data ⟨2, 0, [0xAA], 0x54⟩).wf = false := by decide

theorem test_wf_refuses_checksum : (Instr.eof ⟨0, 0, [], 0xFE⟩).wf = false := by decide

theorem test_wf_refuses_extaddr_checksum : (Instr.extaddr 0 0x00 0x01 0xF8).wf = false := by decide

/-- Type 0x04 needs byte count 2 (R103); the checksum is right. -/
theorem test_wf_refuses_extaddr_length : (Record.mk 1 0 4 [0x00] 0xFB).wf = false := by decide

theorem test_wf_refuses_ignored02_checksum : (Instr.ignored02 ⟨0, 0, [], 0xFF⟩).wf = false := by decide

theorem test_wf_refuses_ignored03_checksum : (Instr.ignored03 ⟨0, 0, [], 0xFF⟩).wf = false := by decide

theorem test_wf_refuses_ignored05_checksum : (Instr.ignored05 ⟨0, 0, [], 0xFF⟩).wf = false := by decide

theorem test_wf_refuses_ignored06to07_type : (Instr.ignored06to07 0x08 ⟨0, 0, [], 0xF8⟩).wf = false := by decide

theorem test_wf_refuses_ignored08to0F_type : (Instr.ignored08to0F 0x07 ⟨0, 0, [], 0xF9⟩).wf = false := by decide

theorem test_wf_refuses_ignored10to1F_type : (Instr.ignored10to1F 0x20 ⟨0, 0, [], 0xE0⟩).wf = false := by decide

theorem test_wf_refuses_ignored20to3F_type : (Instr.ignored20to3F 0x1F ⟨0, 0, [], 0xE1⟩).wf = false := by decide

theorem test_wf_refuses_ignored40to7F_type : (Instr.ignored40to7F 0x80 ⟨0, 0, [], 0x80⟩).wf = false := by decide

theorem test_wf_refuses_ignored80toFF_type : (Instr.ignored80toFF 0x7F ⟨0, 0, [], 0x81⟩).wf = false := by decide

/-! ### Decoding: one line per constructor, written out from 30_encoding.md R67, R70, R76, R77 -/

/-- What the decoder reads, or nothing. -/
def read (fmt : Format) (l : List Byte) : Option Instr := (decode fmt l).toOption

-- the line is `:0` CR
theorem test_decode_record : read .lineC0 [0x3A, 0x30, 0x0D] = some (.record [0x30]) := by decide

theorem test_decode_nonrecord00to1F : read .lineC0 [0x0A, 0x3A, 0x0D] = some (.nonrecord00to1F 0x0A) := by decide

theorem test_decode_nonrecord20to2F :
    read .lineC0 [0x23, 0x20, 0x61, 0x0D] = some (.nonrecord20to2F 0x23) := by decide

theorem test_decode_nonrecord30to37 : read .lineC0 [0x37, 0x0D] = some (.nonrecord30to37 0x37) := by decide

theorem test_decode_nonrecord38to39 : read .lineC0 [0x39, 0x31, 0x0D] = some (.nonrecord38to39 0x39) := by decide

theorem test_decode_nonrecord3B : read .lineC0 [0x3B, 0x78, 0x0D] = some .nonrecord3B := by decide

theorem test_decode_nonrecord3Cto3F : read .lineC0 [0x3D, 0x0D] = some (.nonrecord3Cto3F 0x3D) := by decide

theorem test_decode_nonrecord40to7F : read .lineC0 [0x61, 0x3A, 0x0D] = some (.nonrecord40to7F 0x61) := by decide

theorem test_decode_nonrecord80toFF : read .lineC0 [0x80, 0x0D] = some (.nonrecord80toFF 0x80) := by decide

-- `:0300300002337A1E` CR: R102's example
theorem test_decode_data :
    read .recordTT
      [0x3A, 0x30, 0x33, 0x30, 0x30, 0x33, 0x30, 0x30, 0x30, 0x30, 0x32, 0x33, 0x33, 0x37, 0x41, 0x31, 0x45, 0x0D] =
    some (.data ⟨3, 0x0030, [0x02, 0x33, 0x7A], 0x1E⟩) := by decide

-- `:00000001FF` CR: R110's example
theorem test_decode_eof :
    read .recordTT
      [0x3A, 0x30, 0x30, 0x30, 0x30, 0x30, 0x30, 0x30, 0x31, 0x46, 0x46, 0x0D] =
    some (.eof ⟨0, 0, [], 0xFF⟩) := by decide

-- `:020000040001F9` CR: R112's example
theorem test_decode_extaddr :
    read .recordTT
      [0x3A, 0x30, 0x32, 0x30, 0x30, 0x30, 0x30, 0x30, 0x34, 0x30, 0x30, 0x30, 0x31, 0x46, 0x39, 0x0D] =
    some (.extaddr 0 0x00 0x01 0xF9) := by decide

-- `:04000005000000C037` CR: R113's example
theorem test_decode_ignored05 :
    read .recordTT
      [0x3A, 0x30, 0x34, 0x30, 0x30, 0x30, 0x30, 0x30, 0x35, 0x30, 0x30, 0x30, 0x30, 0x30, 0x30, 0x43, 0x30, 0x33, 0x37, 0x0D] =
    some (.ignored05 ⟨4, 0, [0x00, 0x00, 0x00, 0xC0], 0x37⟩) := by decide

-- `:000000FF01` CR: V38
theorem test_decode_ignored80toFF :
    read .recordTT
      [0x3A, 0x30, 0x30, 0x30, 0x30, 0x30, 0x30, 0x46, 0x46, 0x30, 0x31, 0x0D] =
    some (.ignored80toFF 0xFF ⟨0, 0, [], 0x01⟩) := by decide

-- `:00000002FE` CR: type 0x02, checksum by R76
theorem test_decode_ignored02 :
    read .recordTT
      [0x3A, 0x30, 0x30, 0x30, 0x30, 0x30, 0x30, 0x30, 0x32, 0x46, 0x45, 0x0D] =
    some (.ignored02 ⟨0, 0, [], 0xFE⟩) := by decide

-- `:00000003FD` CR: type 0x03, checksum by R76
theorem test_decode_ignored03 :
    read .recordTT
      [0x3A, 0x30, 0x30, 0x30, 0x30, 0x30, 0x30, 0x30, 0x33, 0x46, 0x44, 0x0D] =
    some (.ignored03 ⟨0, 0, [], 0xFD⟩) := by decide

-- `:01123407AB07` CR: type 0x07, checksum by R76
theorem test_decode_ignored06to07 :
    read .recordTT
      [0x3A, 0x30, 0x31, 0x31, 0x32, 0x33, 0x34, 0x30, 0x37, 0x41, 0x42, 0x30, 0x37, 0x0D] =
    some (.ignored06to07 0x07 ⟨1, 0x1234, [0xAB], 0x07⟩) := by decide

-- `:01123408AB06` CR: type 0x08, checksum by R76
theorem test_decode_ignored08to0F :
    read .recordTT
      [0x3A, 0x30, 0x31, 0x31, 0x32, 0x33, 0x34, 0x30, 0x38, 0x41, 0x42, 0x30, 0x36, 0x0D] =
    some (.ignored08to0F 0x08 ⟨1, 0x1234, [0xAB], 0x06⟩) := by decide

-- `:0112341FABEF` CR: type 0x1F, checksum by R76
theorem test_decode_ignored10to1F :
    read .recordTT
      [0x3A, 0x30, 0x31, 0x31, 0x32, 0x33, 0x34, 0x31, 0x46, 0x41, 0x42, 0x45, 0x46, 0x0D] =
    some (.ignored10to1F 0x1F ⟨1, 0x1234, [0xAB], 0xEF⟩) := by decide

-- `:01123420ABEE` CR: type 0x20, checksum by R76
theorem test_decode_ignored20to3F :
    read .recordTT
      [0x3A, 0x30, 0x31, 0x31, 0x32, 0x33, 0x34, 0x32, 0x30, 0x41, 0x42, 0x45, 0x45, 0x0D] =
    some (.ignored20to3F 0x20 ⟨1, 0x1234, [0xAB], 0xEE⟩) := by decide

-- `:0112347FAB8F` CR: type 0x7F, checksum by R76
theorem test_decode_ignored40to7F :
    read .recordTT
      [0x3A, 0x30, 0x31, 0x31, 0x32, 0x33, 0x34, 0x37, 0x46, 0x41, 0x42, 0x38, 0x46, 0x0D] =
    some (.ignored40to7F 0x7F ⟨1, 0x1234, [0xAB], 0x8F⟩) := by decide

-- `:0300300002337A1E` CR is what the encoder writes for its fields (R76)
theorem test_encode_data :
    encode (.data ⟨3, 0x0030, [0x02, 0x33, 0x7A], 0x1E⟩) =
      [0x3A, 0x30, 0x33, 0x30, 0x30, 0x33, 0x30, 0x30, 0x30, 0x30, 0x32, 0x33, 0x33, 0x37, 0x41, 0x31, 0x45, 0x0D] := by decide

theorem test_decode_refuses_empty : read .lineC0 [] = none ∧ read .recordTT [] = none := by decide

-- `:0` CR, `#` CR: no RECORD_TT operation
theorem test_decode_refuses_rejected :
    read .recordTT [0x3A, 0x30, 0x0D] = none ∧ read .recordTT [0x23, 0x0D] = none := by decide

/-! ### The table's words (log entry 10) -/

/-- The word selects a row of the format and pattern. -/
def wordRow (word : Nat) : Option Row := (decodeTableWord 8 word).map Instr.row

theorem test_word_lines :
    [0x3A, 0x30, 0x38, 0x3B, 0x3C].map wordRow =
      [some ⟨.lineC0, 0x3A#8, 0xFF#8⟩, some ⟨.lineC0, 0x30#8, 0xF8#8⟩, some ⟨.lineC0, 0x38#8, 0xFE#8⟩,
       some ⟨.lineC0, 0x3B#8, 0xFF#8⟩, some ⟨.lineC0, 0x3C#8, 0xFC#8⟩] := by decide

/-- Words that both formats hold with equally many fixed bits, or fewer for RECORD_TT, are lines. -/
theorem test_word_lines_shared :
    [0x20, 0x40, 0x80].map wordRow =
      [some ⟨.lineC0, 0x20#8, 0xF0#8⟩, some ⟨.lineC0, 0x40#8, 0xC0#8⟩, some ⟨.lineC0, 0x80#8, 0x80#8⟩] := by decide

theorem test_word_records :
    [0x00, 0x01, 0x04, 0x02, 0x03, 0x05, 0x06, 0x08, 0x10].map wordRow =
      [some ⟨.recordTT, 0x00#8, 0xFF#8⟩, some ⟨.recordTT, 0x01#8, 0xFF#8⟩, some ⟨.recordTT, 0x04#8, 0xFF#8⟩,
       some ⟨.recordTT, 0x02#8, 0xFF#8⟩, some ⟨.recordTT, 0x03#8, 0xFF#8⟩, some ⟨.recordTT, 0x05#8, 0xFF#8⟩,
       some ⟨.recordTT, 0x06#8, 0xFE#8⟩, some ⟨.recordTT, 0x08#8, 0xF8#8⟩, some ⟨.recordTT, 0x10#8, 0xF0#8⟩] :=
  by decide

/-! ### Small states -/

/-- Configuration B of 95_test_vectors.md: E = W. -/
def configB : Config := { configA with eraseWords := 2, sharedUnit := none }

/-- Configuration A in redundant mode. -/
def configPair : Config := { configA with redundant := true }

/-- The line `l` received after reset, in VALIDATE. -/
def lineAt (c : Config) (l : List Byte) : State := (State.resetWith c .reference []).placeLine l

/-- The record line `l` received and validated after reset, in DISPATCH. -/
def recordAt (c : Config) (l : List Byte) : State :=
  match parse (content l) with
  | .ok r => (lineAt c l).acceptRecord r
  | .error _ => lineAt c l

/-- The state an outcome goes on with. -/
def nextOf (o : Host.Outcome State Fault Refusal) : Option State :=
  match o with
  | .next t => some t
  | _ => none

/-- The refusal an outcome is. -/
def refusalOf (o : Host.Outcome State Fault Refusal) : Option Refusal :=
  match o with
  | .refused r => some r
  | _ => none

/-- The fault an outcome is. -/
def faultOf (o : Host.Outcome State Fault Refusal) : Option Fault :=
  match o with
  | .fault f => some f
  | _ => none

/-- The state after one step (the same state where there is none). -/
def after (s : State) : State := (nextOf (step s)).getD s

/-- `:00000001FF` CR. -/
def eofLine : List Byte :=
  [0x3A, 0x30, 0x30, 0x30, 0x30, 0x30, 0x30, 0x30, 0x31, 0x46, 0x46, 0x0D]

/-- `:0300300002337A1E` CR. -/
def datLine : List Byte :=
  [0x3A, 0x30, 0x33, 0x30, 0x30, 0x33, 0x30, 0x30, 0x30, 0x30, 0x32, 0x33, 0x33, 0x37, 0x41, 0x31, 0x45, 0x0D]

/-- `:041F8400DEADBEEF21` CR (V61). -/
def rmwLine : List Byte :=
  [0x3A, 0x30, 0x34, 0x31, 0x46, 0x38, 0x34, 0x30, 0x30, 0x44, 0x45, 0x41, 0x44, 0x42, 0x45, 0x45, 0x46, 0x32, 0x31, 0x0D]

/-- `:020000040001F9` CR. -/
def extLine : List Byte :=
  [0x3A, 0x30, 0x32, 0x30, 0x30, 0x30, 0x30, 0x30, 0x34, 0x30, 0x30, 0x30, 0x31, 0x46, 0x39, 0x0D]

/-- `:04000005000000C037` CR. -/
def ignLine : List Byte :=
  [0x3A, 0x30, 0x34, 0x30, 0x30, 0x30, 0x30, 0x30, 0x35, 0x30, 0x30, 0x30, 0x30, 0x30, 0x30, 0x43, 0x30, 0x33, 0x37, 0x0D]

/-- `:0300300002337A1F` CR (V18). -/
def badLine : List Byte :=
  [0x3A, 0x30, 0x33, 0x30, 0x30, 0x33, 0x30, 0x30, 0x30, 0x30, 0x32, 0x33, 0x33, 0x37, 0x41, 0x31, 0x46, 0x0D]

/-- `:041F7E000102030455` CR (V62). -/
def stradLine : List Byte :=
  [0x3A, 0x30, 0x34, 0x31, 0x46, 0x37, 0x45, 0x30, 0x30, 0x30, 0x31, 0x30, 0x32, 0x30, 0x33, 0x30, 0x34, 0x35, 0x35, 0x0D]

/-- `:041F8600DEADBEEF1F` CR (V58). -/
def protLine : List Byte :=
  [0x3A, 0x30, 0x34, 0x31, 0x46, 0x38, 0x36, 0x30, 0x30, 0x44, 0x45, 0x41, 0x44, 0x42, 0x45, 0x45, 0x46, 0x31, 0x46, 0x0D]

/-- `#` CR. -/
def hashLine : List Byte := [0x23, 0x0D]

/-! ### Single steps (95_test_vectors.md) -/

/-- What a step leaves of the flags. -/
def flagsAfter (s : State) : St × Verdict × Bool := ((after s).st, (after s).verdict, (after s).ackOk)

/-- V24. -/
theorem test_record_accepted : flagsAfter (lineAt configA datLine) = (.dispatch, .okRecord, true) := by decide

/-- V18. -/
theorem test_record_checksum : flagsAfter (lineAt configA badLine) = (.acknowledge, .badChecksum, false) := by decide

/-- R96, R108. -/
theorem test_step_nonrecord00to1F :
    flagsAfter (lineAt configA [0x0A, 0x3A, 0x0D]) = (.acknowledge, .okNonrecord, true) := by decide

/-- R96, R108. -/
theorem test_step_nonrecord20to2F :
    flagsAfter (lineAt configA [0x23, 0x3A, 0x0D]) = (.acknowledge, .okNonrecord, true) := by decide

/-- R96, R108. -/
theorem test_step_nonrecord30to37 :
    flagsAfter (lineAt configA [0x31, 0x3A, 0x0D]) = (.acknowledge, .okNonrecord, true) := by decide

/-- R96, R108. -/
theorem test_step_nonrecord38to39 :
    flagsAfter (lineAt configA [0x38, 0x3A, 0x0D]) = (.acknowledge, .okNonrecord, true) := by decide

/-- R96, R108. -/
theorem test_step_nonrecord3B :
    flagsAfter (lineAt configA [0x3B, 0x3A, 0x0D]) = (.acknowledge, .okNonrecord, true) := by decide

/-- R96, R108. -/
theorem test_step_nonrecord3Cto3F :
    flagsAfter (lineAt configA [0x3C, 0x3A, 0x0D]) = (.acknowledge, .okNonrecord, true) := by decide

/-- R96, R108. -/
theorem test_step_nonrecord40to7F :
    flagsAfter (lineAt configA [0x41, 0x3A, 0x0D]) = (.acknowledge, .okNonrecord, true) := by decide

/-- R96, R108. -/
theorem test_step_nonrecord80toFF :
    flagsAfter (lineAt configA [0xFF, 0x3A, 0x0D]) = (.acknowledge, .okNonrecord, true) := by decide

/-- V10. -/
theorem test_step_length_1 : flagsAfter (lineAt configB [0x3A, 0x0D]) = (.acknowledge, .badLength, false) := by decide

/-- V12. -/
theorem test_step_char_case :
    flagsAfter (lineAt configB [0x3A, 0x30, 0x61, 0x0D]) = (.acknowledge, .badChar, false) := by decide

/-- V14. -/
theorem test_step_length_mismatch :
    flagsAfter (lineAt configB [0x3A, 0x46, 0x46, 0x0D]) = (.acknowledge, .badLength, false) := by decide

/-- V20: `:0100000400FB` CR. -/
theorem test_step_extlen :
    flagsAfter (lineAt configB [0x3A, 0x30, 0x31, 0x30, 0x30, 0x30, 0x30, 0x30, 0x34, 0x30, 0x30, 0x46, 0x42, 0x0D]) =
      (.acknowledge, .badExtlen, false) := by decide

/-- L1-1 in configuration A: word 0x18 is aligned and nothing has been written, so its unit is erased first. -/
theorem test_data_erases_first :
    let t := after (recordAt configA datLine)
    (t.st, t.path, t.lin, t.w, t.wl) = (.erase, .normal, 0x30, 0x18, 0x19) := by decide

/-- L1-1 in configuration B: with E = W the record is written at once. -/
theorem test_data_equal_geometry :
    let t := after (recordAt configB datLine)
    (t.st, t.path, t.w, t.wl) = (.write, .normal, 0x18, 0x19) := by decide

/-- R110: EOF. -/
theorem test_eof_resets : (after (recordAt configA eofLine)).st = .resetting := by decide

/-- R112: EXTADDR. -/
theorem test_extaddr_sets_ext :
    let t := after (recordAt configA extLine)
    (t.st, t.ext, t.nextAddr) = (.acknowledge, 0x0001, none) := by decide

/-- V36: type 0x05. -/
theorem test_ignored05_acknowledged : (after (recordAt configA ignLine)).st = .acknowledge := by decide

/-- R113: every other IGNORED row. -/
theorem test_ignored_acknowledged :
    [0x02#8, 0x03#8, 0x06#8, 0x0F#8, 0x10#8, 0x3F#8, 0x40#8, 0xFF#8].map
      (fun rt => (after { recordAt configA ignLine with
        latch := { rc := 0, ra := 0, rt := rt, rd := [], cs := 0 } }).st) =
      List.replicate 8 St.acknowledge := by decide

/-- V58: a record that overlaps the loader region in one word is skipped. -/
theorem test_data_protected :
    let t := after (recordAt configA protLine)
    (t.st, t.ackOk, t.nextAddr, t.trace) = (.acknowledge, true, none, []) := by decide

/-- V62: the shared-unit straddle is refused. -/
theorem test_data_straddle : refusalOf (step (recordAt configA stradLine)) = some .sharedStraddle := by decide

/-- V61: the read-modify-write is chosen for a record in the shared unit. -/
theorem test_data_shared_unit :
    let t := after (recordAt configA rmwLine)
    (t.st, t.path, t.w, t.wl) = (.erase, .rmw, 0x0FC2, 0x0FC3) := by decide

/-- V61: what WRITE sends to the shared unit, of which bytes 0x1F80 to 0x1F8F hold A0 to AF. -/
theorem test_rmw_writes_back :
    let s := { recordAt configA rmwLine with
      flash := Memory.image 0x1F80
        [0xA0, 0xA1, 0xA2, 0xA3, 0xA4, 0xA5, 0xA6, 0xA7, 0xA8, 0xA9, 0xAA, 0xAB, 0xAC, 0xAD, 0xAE, 0xAF] }
    let t := after (after (after (after s)))
    (t.scratch, t.flRequest) =
      ([0xA0, 0xA1, 0xA2, 0xA3, 0xDE, 0xAD, 0xBE, 0xEF, 0xA8, 0xA9, 0xAA, 0xAB, 0xAC, 0xAD, 0xAE, 0xAF],
       some (.flWrite 0x0FC0 t.scratch 16)) := by decide

/-- R156: a session starts with the image it is given, and RST leaves it there; 0xFF is no cell of its own. -/
theorem test_initial_image :
    let s := State.resetWith configA .reference (Memory.image 0x1F80 [0x00, 0xFF, 0xA5])
    (s.flash, (after { s with rst := true }).flash) =
      ([(0x1F80, 0x00), (0x1F82, 0xA5)], [(0x1F80, 0x00), (0x1F82, 0xA5)]) := by decide

/-- R155: an illegal geometry (3 is no multiple of 2) is refused. -/
theorem test_illegal_configuration :
    refusalOf (step (State.resetWith { configA with eraseWords := 3, sharedUnit := none } .reference [])) =
      some .illegalConfiguration := by decide

/-- U7: the value 7 of `st` is stuck. -/
theorem test_state_seven : faultOf (step { State.reset with st := St.ofCode 7 }) = some .stuckState := by decide

/-- Memory: a listed blank cell or a wrong order is not the canonical form. -/
theorem test_memory_wf :
    [Memory.wf [(1, 0x00), (2, 0x01)], Memory.wf [(1, 0xFF)], Memory.wf [(2, 0x00), (1, 0x00)],
      Memory.wf [(1, 0x00), (1, 0x00)]] = [true, false, false, false] := by decide

/-- A table word is the operation that the next step after reset runs: EOF, EXTADDR and a non-record line. -/
theorem test_word_runs :
    [0x01, 0x04, 0x3B].map (fun w => (after (State.reset.withFetchWord 8 w)).st) =
      [.resetting, .acknowledge, .acknowledge] := by decide

/-! ### Witnesses: states of the invariant -/

/-- The fields of the invariant but the stage, checked. -/
theorem inv_of (s : State)
    (h : (configLegal s.cfg && s.buf0.length == s.cfg.lineCap && s.buf1.length == s.cfg.lineCap &&
      decide (s.len0 ≤ s.cfg.lineCap) && decide (s.len1 ≤ s.cfg.lineCap) &&
      s.scratch.length == 2 * s.cfg.eraseWords.toNat && (s.cfg.redundant || (!s.sel && s.len1 == 0)) && s.flash.wf) = true)
    (hs : s.stageOk) : Inv s := by
  simp only [Bool.and_eq_true, Bool.or_eq_true, Bool.not_eq_true', beq_iff_eq, decide_eq_true_eq] at h
  obtain ⟨⟨⟨⟨⟨⟨⟨h1, h2⟩, h3⟩, h4⟩, h5⟩, h6⟩, h7⟩, h8⟩ := h
  exact
    { legal := h1, buf0 := h2, buf1 := h3, len0 := h4, len1 := h5, scratch := h6, flash := h8, stage := hs
      single := fun hr => h7.resolve_left (by simp [hr]) }

/-- After reset. -/
theorem wit_inv_reset : Inv State.reset :=
  inv_of _ (by decide) (.inl ⟨by decide, by decide, by decide, by decide⟩)

/-- A received line in VALIDATE. -/
theorem wit_inv_validate : Inv (lineAt configA datLine) :=
  inv_of _ (by decide) ⟨by decide, by unfold State.unitReceived lineWhole; decide⟩

/-- A pair in VALIDATE. -/
theorem wit_inv_validate_pair : Inv (lineAt configPair eofLine) :=
  inv_of _ (by decide) ⟨by decide, by unfold State.unitReceived lineWhole; decide⟩

theorem wit_recordLatched (s : State) (h : s = recordAt configA datLine ∨ s = recordAt configA rmwLine ∨
    s = recordAt configA eofLine ∨ s = recordAt configA stradLine) : s.unitReceived ∧ s.recordLatched := by
  unfold State.unitReceived lineWhole State.recordLatched
  rcases h with rfl | rfl | rfl | rfl <;> decide

/-- A latched record in DISPATCH. -/
theorem wit_inv_dispatch : Inv (recordAt configA datLine) :=
  inv_of _ (by decide) ⟨by decide, wit_recordLatched _ (.inl rfl)⟩

/-- A straddling record in DISPATCH. -/
theorem wit_inv_straddle : Inv (recordAt configA stradLine) :=
  inv_of _ (by decide) ⟨by decide, wit_recordLatched _ (.inr (.inr (.inr rfl)))⟩

/-- ERASE on the normal path. -/
def eraseAt : State := after (recordAt configA datLine)

/-- ERASE on the RMW path. -/
def rmwAt : State := after (recordAt configA rmwLine)

theorem wit_dataLatched_normal : eraseAt.dataLatched := by
  refine ⟨?_, by decide, by decide, by decide, by decide, by decide, by decide, fun _ => .inr ?_, fun h => ?_⟩
  · unfold State.recordLatched; decide
  · intro u hu
    have hu' : some 0x0FC0#32 = some u := hu
    cases hu'
    decide
  · exact absurd h (by decide)

theorem wit_dataLatched_rmw : rmwAt.dataLatched := by
  refine ⟨?_, by decide, by decide, by decide, by decide, by decide, by decide, fun h => ?_, fun _ => ?_⟩
  · unfold State.recordLatched; decide
  · exact absurd h (by decide)
  · exact ⟨by decide, 0x0FC0#32, rfl, by decide⟩

theorem wit_inv_erase : Inv eraseAt :=
  inv_of _ (by decide)
    ⟨by unfold State.unitReceived lineWhole; decide, wit_dataLatched_normal, by decide, by decide, by decide⟩

theorem wit_inv_rmw : Inv rmwAt :=
  inv_of _ (by decide)
    ⟨by unfold State.unitReceived lineWhole; decide, wit_dataLatched_rmw, by decide, by decide, by decide⟩

/-- The history of a unit between XOFF and XON. -/
theorem wit_gate : GateInv { eraseAt with trace := [.tx 0x13#8, .rx 0x0D#8] } :=
  ⟨by decide, fun h => absurd h (by decide), by decide⟩

/-! ### Witnesses: every statement with hypotheses has operands that meet them -/

/-- The state is running and its step goes on. -/
def goesOn (s : State) : Bool := configLegal s.cfg && !s.rst && (nextOf (step s)).isSome

theorem wit_EveryLineSelectsOneOperation :
    (parse (content datLine)).toOption.isSome = true ∧ parse (content badLine) = .error .badChecksum := by decide

theorem wit_DecodeOfEncodeIsInstruction :
    (Instr.ignored80toFF 0xFF ⟨0, 0, [], 0x01⟩).wf = true ∧ (Instr.record [0x30]).wf = true ∧
    (Instr.nonrecord00to1F 0x0D).wf = true := by decide

theorem wit_LatchedFieldsEncodeToTheLine :
    ((nextOf (exec (.record ((content datLine).drop 1)) State.reset)).map (·.st)) = some .dispatch := by decide

-- `:`, `:0`, `:0a`, `:FF`, `:0000000`, V17, V18, V20 and V24: one line per clause
theorem wit_ValidationChecksInOrder :
    [[0x3A],
     [0x3A, 0x30],
     [0x3A, 0x30, 0x61],
     [0x3A, 0x46, 0x46],
     [0x3A, 0x30, 0x30, 0x30, 0x30, 0x30, 0x30, 0x30],
     [0x3A, 0x30, 0x33, 0x30, 0x30, 0x33, 0x30, 0x30, 0x30, 0x30, 0x32, 0x33, 0x33, 0x37, 0x61, 0x31, 0x65],
     [0x3A, 0x30, 0x33, 0x30, 0x30, 0x33, 0x30, 0x30, 0x30, 0x30, 0x32, 0x33, 0x33, 0x37, 0x41, 0x31, 0x46],
     [0x3A, 0x30, 0x31, 0x30, 0x30, 0x30, 0x30, 0x30, 0x34, 0x30, 0x30, 0x46, 0x42],
     [0x3A, 0x30, 0x33, 0x30, 0x30, 0x33, 0x30, 0x30, 0x30, 0x30, 0x32, 0x33, 0x33, 0x37, 0x41, 0x31, 0x45]].map
      (fun l => (parse l).toOption.isSome) =
    [false, false, false, false, false, false, false, false, true] := by decide

theorem wit_OneChangedDigitFailsTheChecksum :
    let body := (content datLine).drop 1
    (parse (Byte.colon :: body)).toOption.isSome = true ∧ body.length = 16 ∧ hexval 0x46 ≠ none ∧
    body[2]? ≠ some 0x46 ∧ body[15]? ≠ some 0x46 := by decide

theorem wit_InvalidRecordLineIsRejected : parse (Byte.colon :: [0x30]) = .error .badLength := by decide

theorem wit_ValidRecordIsLatched :
    parse (content datLine) = .ok ⟨3, 0x0030, 0x00, [0x02, 0x33, 0x7A], 0x1E⟩ := by decide

theorem wit_LineOperationsFrame :
    Instr.nonrecord3B.format = .lineC0 ∧ (nextOf (exec .nonrecord3B State.reset)).isSome = true ∧
    (Instr.record []).format = .lineC0 ∧ (nextOf (exec (.record []) State.reset)).isSome = true := by decide

-- the largest linear address, with one byte and with 255
theorem wit_AddressArithmetic :
    (linearAddr 0xFFFF 0xFFFF, lastWord (linearAddr 0xFFFF 0xFFFF) 1, lastWord (linearAddr 0xFFFF 0xFFFF) 255) =
      (0xFFFFFFFF, 0x7FFFFFFF, 0x8000007E) := by decide

theorem wit_EmptyDataChangesNothing : (Fields.mk 0 0x0010 [] 0xF0).rc = 0 := by decide

-- the last word of the record is the first protected one, and its first word is the last protected one
theorem wit_ProtectedDataIsSkipped :
    (0x1F86 + 4 - 1) / 2 = configA.lrStart.toNat ∧ 0x1F86 / 2 ≤ configA.lrEnd.toNat ∧
    0x1FFE / 2 = configA.lrEnd.toNat ∧ configA.lrStart.toNat ≤ (0x1FFE + 1 - 1) / 2 ∧ State.reset.ext = 0 := by decide

-- just below and just above the region
theorem wit_EqualGeometryNeverErases :
    configB.eraseWords = configB.writeWords ∧ (State.resetWith configB .reference []).ext = 0 ∧
    (0x1F84 + 4 - 1) / 2 < configB.lrStart.toNat ∧ configB.lrEnd.toNat < 0x2000 / 2 := by decide

-- the whole unit below the region (inside), and a record that starts one word before the unit (straddles)
theorem wit_SharedUnitSelection :
    configA.eraseWords ≠ configA.writeWords ∧ configA.sharedUnit = some 0x0FC0 ∧
    (0x0FC0 ≤ 0x1F80 / 2 ∧ (0x1F80 + 8 - 1) / 2 < configA.lrStart.toNat ∧ (0x1F80 + 8 - 1) / 2 ≤ 0x0FC0 + 8 - 1) ∧
    (0x1F7E / 2 ≤ 0x0FC0 + 8 - 1 ∧ 0x0FC0 ≤ (0x1F7E + 4 - 1) / 2 ∧ ¬ 0x0FC0 ≤ 0x1F7E / 2 ∧
      (0x1F7E + 4 - 1) / 2 < configA.lrStart.toNat) := by decide

-- V50 (nothing written yet), V53 (jump over a boundary), V52 (continuation), V54 (unaligned)
theorem wit_EraseDecision :
    configLegal configA = true ∧ configA.eraseWords ≠ configA.writeWords ∧
    (∀ u, configA.sharedUnit = some u → (0x20 + 4 - 1) / 2 < u.toNat) ∧ (0x20 + 4 - 1) / 2 < configA.lrStart.toNat ∧
    [eraseNeeded 8 0x10 none, eraseNeeded 8 0x10 (some 0x0A), eraseNeeded 8 0x10 (some 0x10),
      eraseNeeded 8 0x12 (some 0x0A)] = [true, true, false, false] := by
  refine ⟨by decide, by decide, ?_, by decide, by decide⟩
  intro u hu
  have hu' : some 0x0FC0#32 = some u := hu
  cases hu'
  decide

theorem wit_EraseDecisionIsForwardJump : 0 < 8 ∧ (0x10#32).toNat % 8 = 0 := by decide

theorem wit_NoEraseWithoutForwardJump :
    (0x10#32).toNat ≤ (0x10#32).toNat ∧ (0x12#32).toNat % 8 ≠ 0 ∧
    (0x10 % 8 = 0 ∧ 0x10 ≤ (0x17#32).toNat ∧ (0x17#32).toNat < 0x10 + 8 ∧ 0x10 < (0x11#32).toNat) := by decide

theorem wit_RecordOperationsFrame :
    (Instr.eof ⟨0, 0, [], 0xFF⟩).format = .recordTT ∧
    (nextOf (exec (.eof ⟨0, 0, [], 0xFF⟩) State.reset)).isSome = true ∧
    (nextOf (exec (.data ⟨3, 0x0030, [0x02, 0x33, 0x7A], 0x1E⟩) State.reset)).isSome = true ∧
    (nextOf (exec (.extaddr 0 0x00 0x01 0xF9) State.reset)).isSome = true := by decide

theorem wit_StepRunsTheDecodedLine :
    (lineAt configPair eofLine).running ∧ (lineAt configPair eofLine).st = .validate ∧
    content (lineAt configPair eofLine).line0 = content (lineAt configPair eofLine).line1 ∧
    decode .lineC0 (lineAt configPair eofLine).line0 = .ok (.record ((content eofLine).drop 1)) := by decide

theorem wit_StepRunsTheDecodedRecord :
    Inv (recordAt configA datLine) ∧ (recordAt configA datLine).running ∧ (recordAt configA datLine).st = .dispatch ∧
    ofRecord (recordAt configA datLine).latch = .ok (.data ⟨3, 0x0030, [0x02, 0x33, 0x7A], 0x1E⟩) ∧
    decode .recordTT (recordAt configA datLine).line0 = .ok (.data ⟨3, 0x0030, [0x02, 0x33, 0x7A], 0x1E⟩) :=
  ⟨wit_inv_dispatch, by decide⟩

/-- AWAIT with the byte `b` at RX and `n` bytes in each buffer of 2. -/
def awaitAt (redundant sel : Bool) (n : Nat) (b : Byte) : State :=
  { State.resetWith { configA with redundant := redundant, lineCap := 2 } .reference [] with
    sel := sel, len0 := n, len1 := n, rx := [b, 0x30] }

-- an ordinary byte, the last free place, a CR; the first and the second line of a pair
theorem wit_ReceiveStoresTheByte :
    [awaitAt false false 0 0x3A, awaitAt false false 1 0x3A, awaitAt false false 0 0x0D, awaitAt true false 1 0x3A,
      awaitAt true true 0 0x3A, awaitAt true true 1 0x3A].map
      (fun s => (goesOn s, (after s).ph, (after s).sel, (after s).lenSel)) =
    [(true, 0, false, 1), (true, 1, false, 2), (true, 1, false, 1), (true, 0, true, 1), (true, 0, true, 1),
      (true, 1, true, 2)] := by decide

/-- XOFF is due. -/
def xoffAt : State := after (awaitAt false false 1 0x3A)

theorem wit_XoffFollowsTheUnit :
    xoffAt.running ∧ xoffAt.st = .await ∧ xoffAt.ph = 1 ∧ xoffAt.txReady = true := by decide

/-- A pair of lines that differ. -/
def mismatchAt : State := { lineAt configPair eofLine with buf1 := mergeAt (List.replicate 64 0) 0 hashLine, len1 := 2 }

theorem wit_PairMismatchIsRejected :
    mismatchAt.running ∧ mismatchAt.st = .validate ∧ mismatchAt.cfg.redundant = true ∧
    content mismatchAt.line0 ≠ content mismatchAt.line1 := by decide

/-- ACKNOWLEDGE, with or without an ACK. -/
def ackAt (ok : Bool) : State := { lineAt configA hashLine with st := .acknowledge, ackOk := ok }

theorem wit_AcknowledgeSendsAckThenXon :
    ∀ ok : Bool, (ackAt ok).running ∧ (ackAt ok).st = .acknowledge ∧ (ackAt ok).ph = 0 ∧ (ackAt ok).txReady = true ∧
      (ackAt ok).ackOk = ok := by decide

/-- RESETTING with either trailer. -/
def resettingAt (final : Bool) : State := after (recordAt { configA with eofFinalXon := final } eofLine)

theorem wit_EndOfSessionSequence :
    ∀ final : Bool, (resettingAt final).running ∧ (resettingAt final).st = .resetting ∧ (resettingAt final).ph = 0 ∧
      (resettingAt final).txReady = true ∧ (resettingAt final).cfg.eofFinalXon = final := by decide

theorem wit_NothingAfterDeviceReset :
    ∀ final : Bool, { resettingAt final with ph := if final then 5 else 4 }.running ∧
      (resettingAt final).st = .resetting ∧ (resettingOps (resettingAt final).cfg).length = (if final then 5 else 4) := by
  decide

theorem wit_NormalEraseErasesOneUnit :
    eraseAt.running ∧ eraseAt.st = .erase ∧ eraseAt.path = .normal ∧ eraseAt.flDone = true ∧
    eraseAt.w.toNat % eraseAt.cfg.eraseWords.toNat = 0 ∧ eraseAt.device = .reference := by decide

-- the same hypotheses on the device the spec does not describe (log entry 8)
theorem wit_NormalEraseErasesOneUnit_unspecified :
    let s := { eraseAt with device := .unspecified }
    s.running ∧ s.st = .erase ∧ s.path = .normal ∧ s.flDone = true ∧ s.w.toNat % s.cfg.eraseWords.toNat = 0 ∧
    s.device = .unspecified ∧ (nextOf (step s)).map (·.trace) = some (.flErase 0x18 :: s.trace) := by decide

/-- WRITE on the normal path. -/
def writeAt : State := after (recordAt configB datLine)

theorem wit_NormalWriteStoresThePayload :
    writeAt.running ∧ writeAt.st = .write ∧ writeAt.path = .normal ∧ writeAt.flDone = true ∧ writeAt.flash.wf = true ∧
    writeAt.latch.rd.length = writeAt.latch.rc.toNat ∧ writeAt.device = .reference := by decide

theorem wit_NormalWriteStoresThePayload_unspecified :
    let s := { writeAt with device := .unspecified }
    s.running ∧ s.st = .write ∧ s.path = .normal ∧ s.flDone = true ∧ s.flash.wf = true ∧
    s.latch.rd.length = s.latch.rc.toNat ∧ s.device = .unspecified ∧
    (nextOf (step s)).map (·.nextAddr) = some (some 0x1A) := by decide

theorem wit_ReadModifyWriteKeepsTheRemainder :
    Inv rmwAt ∧ rmwAt.rst = false ∧ rmwAt.st = .erase ∧ rmwAt.ph = 0 ∧ rmwAt.path = .rmw ∧
    rmwAt.cfg.sharedUnit = some 0x0FC0 ∧ rmwAt.flDone = true ∧ rmwAt.device = .reference :=
  ⟨wit_inv_rmw, by decide⟩

/-- The invariant does not look at the device. -/
theorem wit_inv_device {s : State} (d : Device) (h : Inv s) : Inv { s with device := d } := { h with }

theorem wit_ReadModifyWriteKeepsTheRemainder_unspecified :
    let s := { rmwAt with device := .unspecified }
    Inv s ∧ s.rst = false ∧ s.st = .erase ∧ s.ph = 0 ∧ s.path = .rmw ∧ s.cfg.sharedUnit = some 0x0FC0 ∧
    s.flDone = true ∧ s.device = .unspecified :=
  ⟨wit_inv_device _ wit_inv_rmw, by decide⟩

theorem wit_FlashCommandsRespectTheLoader :
    Inv eraseAt ∧ eraseAt.cfg.sharedUnit = defaultSharedUnit eraseAt.cfg.eraseWords eraseAt.cfg.lrStart ∧
    (nextOf (step eraseAt)).map (·.trace) = some (.flErase 0x18 :: eraseAt.trace) :=
  ⟨wit_inv_erase, by decide⟩

theorem wit_FlashCommandsOnlyForUnprotectedData :
    Inv rmwAt ∧ (nextOf (step rmwAt)).map (·.trace) = some (.flRead 0x0FC0 16 :: rmwAt.trace) ∧
    Event.flRead 0x0FC0 16 ∈ flCommands [.flRead 0x0FC0 16] :=
  ⟨wit_inv_rmw, by decide⟩

theorem wit_DefaultSharedUnitHoldsTheFirstWord :
    (8#32 ≠ 0#32 ∧ (0x0FC4#32).toNat % (8#32).toNat ≠ 0 ∧ defaultSharedUnit 8 0x0FC4 = some 0x0FC0) ∧
    ((0x7000#32).toNat % (2#32).toNat = 0 ∧ defaultSharedUnit 2 0x7000 = none) := by decide

theorem wit_BlockedTransactionsWait :
    (State.reset.running ∧ State.reset.st = .await ∧ State.reset.rx = []) ∧
    ([xoffAt, ackAt true, ackAt false, resettingAt false].map (fun s => ({ s with txReady := false } : State).txData) =
      [some 0x13, some 0x06, some 0x11, some 0x06]) ∧
    ([eraseAt, writeAt, rmwAt].map (fun s => (({ s with flDone := false } : State).flRequest).isSome) =
      [true, true, true]) := by decide

theorem wit_RstResetsFromAnyState :
    configLegal eraseAt.cfg = true ∧ { eraseAt with rst := true }.rst = true := by decide

theorem wit_StateSevenIsStuck :
    ({ State.reset with st := .unused } : State).running ∧ ({ State.reset with st := .unused } : State).st.code = 7 := by
  decide

-- TransitionTable, NextAddrIsWrittenOnlyByWrite, ExtIsWrittenOnlyByExtaddr, ConfigurationNeverChanges,
-- RxHandshake, TxHandshake, FlHandshake and OneTransactionAStep: a running state in each stage whose step goes on
theorem wit_TransitionTable :
    [awaitAt false false 0 0x3A, xoffAt, lineAt configA datLine, recordAt configA extLine, eraseAt, rmwAt, writeAt,
      ackAt true, resettingAt true].map (fun s => (goesOn s, s.st, (after s).st)) =
    [(true, .await, .await), (true, .await, .validate), (true, .validate, .dispatch), (true, .dispatch, .acknowledge),
      (true, .erase, .write), (true, .erase, .erase), (true, .write, .acknowledge), (true, .acknowledge, .acknowledge),
      (true, .resetting, .resetting)] := by decide

theorem wit_NextAddrIsWrittenOnlyByWrite : goesOn writeAt = true ∧ (after writeAt).nextAddr = some 0x1A := by decide

theorem wit_ExtIsWrittenOnlyByExtaddr :
    goesOn (recordAt configA extLine) = true ∧ (after (recordAt configA extLine)).ext = 0x0001 := by decide

theorem wit_ConfigurationNeverChanges : (nextOf (step { eraseAt with rst := true })).isSome = true := by decide

theorem wit_RxHandshake :
    goesOn (awaitAt false false 0 0x3A) = true ∧ (awaitAt false false 0 0x3A).rxReady = true ∧ goesOn eraseAt = true ∧
    eraseAt.rxReady = false := by decide

theorem wit_TxHandshake : goesOn (ackAt true) = true ∧ (ackAt true).txData = some 0x06 := by decide

theorem wit_FlHandshake : goesOn rmwAt = true ∧ rmwAt.flRequest = some (.flRead 0x0FC0 16) := by decide

theorem wit_OneTransactionAStep :
    goesOn (lineAt configA datLine) = true ∧ (after (lineAt configA datLine)).trace = [] ∧
    (after rmwAt).trace = [.flRead 0x0FC0 16] := by decide

theorem wit_InvariantsHoldAtReset :
    configLegal configA = true ∧ configLegal configB = true ∧ Memory.wf [] = true ∧
    (Memory.image 0 [0x00, 0xFF, 0xA5]).wf = true := by decide

theorem wit_StepKeepsTheInvariant :
    (Inv (lineAt configA datLine) ∧ (nextOf (step (lineAt configA datLine))).isSome = true) ∧
    (Inv rmwAt ∧ (nextOf (step rmwAt)).isSome = true) ∧
    (Inv (lineAt configPair eofLine) ∧ (nextOf (step (lineAt configPair eofLine))).isSome = true) :=
  ⟨⟨wit_inv_validate, by decide⟩, ⟨wit_inv_rmw, by decide⟩, ⟨wit_inv_validate_pair, by decide⟩⟩

theorem wit_StepKeepsTheGate :
    GateInv { eraseAt with trace := [.tx 0x13#8, .rx 0x0D#8] } ∧
    Inv { eraseAt with trace := [.tx 0x13#8, .rx 0x0D#8] } ∧ (nextOf (step eraseAt)).isSome = true :=
  ⟨wit_gate, { wit_inv_erase with }, by decide⟩

theorem wit_InvariantStatesNeverFault :
    Inv (recordAt configA stradLine) ∧ refusalOf (step (recordAt configA stradLine)) = some .sharedStraddle ∧
    Inv State.reset ∧ (nextOf (step State.reset)).isSome = true :=
  ⟨wit_inv_straddle, by decide, wit_inv_reset, by decide⟩

theorem wit_inv_rx (rx : List Byte) : Inv { State.reset with rx := rx } := { wit_inv_reset with }

theorem wit_ReceivedLineReachesValidate :
    let s := { State.reset with rx := eofLine ++ hashLine }
    Inv s ∧ s.rst = false ∧ s.st = .await ∧ s.ph = 0 ∧ s.len0 = 0 ∧ s.cfg.redundant = false ∧ s.txReady = true ∧
    lineWhole s.cfg.lineCap eofLine ∧ eofLine.length ≤ s.cfg.lineCap :=
  ⟨wit_inv_rx _, by decide, by decide, by decide, by decide, by decide, by decide, by unfold lineWhole; decide,
    by decide⟩

-- a pair, the first line cut at the capacity, the second ended by CR
theorem wit_ReceivedLineReachesValidate_pair :
    let s := { State.resetWith { configPair with lineCap := 2 } .reference [] with rx := [0x3A, 0x30, 0x23, 0x0D, 0x3A] }
    Inv s ∧ s.rst = false ∧ s.st = .await ∧ s.ph = 0 ∧ s.len0 = 0 ∧ s.cfg.redundant = true ∧ s.txReady = true ∧
    lineWhole s.cfg.lineCap [0x3A, 0x30] ∧ lineWhole s.cfg.lineCap [0x23, 0x0D] ∧
    s.rx = [0x3A, 0x30] ++ [0x23, 0x0D] ++ [0x3A] :=
  ⟨inv_of _ (by decide) (.inl ⟨by decide, by decide, by decide, by decide⟩), by decide, by decide, by decide, by decide,
    by decide, by decide, by unfold lineWhole; decide, by unfold lineWhole; decide, by decide⟩

theorem wit_RejectedUnitGetsXonAlone :
    (lineAt configA badLine).running ∧ (lineAt configA badLine).st = .validate ∧
    (lineAt configA badLine).txReady = true ∧ (lineAt configA badLine).line0.head? = some 0x3A ∧
    parse (content (lineAt configA badLine).line0) = .error .badChecksum := by decide

theorem wit_AcceptedUnitGetsAckThenXon :
    Inv (lineAt configA datLine) ∧ (lineAt configA datLine).rst = false ∧ (lineAt configA datLine).st = .validate ∧
    (lineAt configA datLine).txReady = true ∧ (lineAt configA datLine).flDone = true ∧
    (lineAt configA datLine).pairDiffers = false ∧
    parse (content (lineAt configA datLine).line0) = .ok ⟨3, 0x0030, 0x00, [0x02, 0x33, 0x7A], 0x1E⟩ :=
  ⟨wit_inv_validate, by decide⟩

end Sys2Proof.Tests
end

/-! PROOFS. The configuration (00_scope.md R7-R11, 10_state.md R33): the default shared unit, the legal configurations as
a proposition, and what a step can refuse, with the inversion lemmas for a refusal beside those of Laws/Ops for a
next state. -/

namespace Sys2Proof.Machine

/-! ### The default shared unit (00_scope.md R9) -/

theorem defaultSharedUnit_of_mod_eq_zero {e l : Word} (h : l.toNat % e.toNat = 0) : defaultSharedUnit e l = none :=
  if_neg (not_not_intro h)

/-- The base of the unit that holds word `l` is no larger than `l`, so its 32 bits lose nothing. -/
theorem defaultSharedUnit_of_mod_ne_zero {e l : Word} (h : l.toNat % e.toNat ≠ 0) :
    ∃ a, defaultSharedUnit e l = some a ∧ a.toNat = l.toNat - l.toNat % e.toNat := by
  refine ⟨_, if_pos h, ?_⟩
  have hl : l.toNat < 2 ^ 32 := l.isLt
  rw [BitVec.toNat_ofNat, Nat.mod_eq_of_lt (by omega)]

/-- Settles O39: rounding the region's first word down to a multiple of E gives a unit base less than E below it. -/
theorem defaultSharedUnitHoldsTheFirstWord : Obligations.DefaultSharedUnitHoldsTheFirstWord := by
  intro e l he
  refine ⟨defaultSharedUnit_of_mod_eq_zero, fun hm => ?_⟩
  obtain ⟨a, ha, hbase⟩ := defaultSharedUnit_of_mod_ne_zero hm
  have hpos : 0 < e.toNat := Nat.pos_of_ne_zero fun h0 => he (BitVec.eq_of_toNat_eq h0)
  have hlt : l.toNat % e.toNat < e.toNat := Nat.mod_lt _ hpos
  have hle : l.toNat % e.toNat ≤ l.toNat := Nat.mod_le ..
  have hdvd : a.toNat % e.toNat = 0 := by rw [hbase]; exact Nat.mod_eq_zero_of_dvd (Nat.dvd_sub_mod _)
  exact ⟨a, ha, hbase, hdvd, by omega, by omega⟩

/-! ### Legal configurations (10_state.md R33) -/

/-- The check of R33 as a proposition. -/
theorem configLegal_iff (c : Config) :
    configLegal c = true ↔
      1 ≤ c.writeWords.toNat ∧ c.writeWords.toNat ≤ c.eraseWords.toNat ∧
      c.eraseWords.toNat % c.writeWords.toNat = 0 ∧ c.lrStart.toNat ≤ c.lrEnd.toNat ∧
      (∀ a, c.sharedUnit = some a → a.toNat % c.eraseWords.toNat = 0) ∧ 1 ≤ c.lineCap := by
  cases hu : c.sharedUnit <;> simp [configLegal, hu, and_assoc]

/-! ### What can be refused -/

section
variable {s : State} {r : Refusal}

theorem State.send_ne_refused {b : Byte} {k : State → State} : s.send b k ≠ .refused r := by
  unfold State.send; split <;> simp

theorem State.command_ne_refused {k : State → State} : s.command k ≠ .refused r := by
  unfold State.command; split <;> simp

/-- How a DATA record is written: only the straddle is refused (43_flash_reconcile.md R124). -/
theorem State.chooseWrite_refused (h : s.chooseWrite = .refused r) : r = .sharedStraddle := by
  unfold State.chooseWrite at h
  split at h
  · cases h
  · split at h
    · cases h
    · split at h
      · split at h <;> cases h
        rfl
      · cases h

/-- DATA (42_record_dispatch.md R109). -/
theorem execData_refused {f : Fields} (h : execData f s = .refused r) : r = .sharedStraddle := by
  unfold execData at h
  split at h
  · cases h
  · simp only at h
    split at h
    · cases h
    · exact State.chooseWrite_refused h

/-- DATA is the only operation that refuses anything. -/
theorem exec_refused {i : Instr} (h : exec i s = .refused r) : ∃ f, i = .data f ∧ r = .sharedStraddle := by
  cases i
  case data f => exact ⟨f, rfl, execData_refused h⟩
  case record body =>
    simp only [exec, execRecord] at h
    split at h <;> cases h
  all_goals cases h

/-- VALIDATE runs operations of format LINE_C0 only (30_encoding.md R64). -/
theorem fetchLine_format {i : Instr} (h : fetchLine s = .ok i) : i.format = .lineC0 := by
  unfold fetchLine at h
  cases hl : s.line0 with
  | nil => rw [hl] at h; cases h
  | cons c cs =>
    rw [hl] at h
    cases h
    by_cases hc : c = Byte.colon
    · subst hc; rfl
    · exact (ofFirstByte_ne_colon c (c :: cs) hc).1

theorem stepAwait_ne_refused : stepAwait s ≠ .refused r := by
  unfold stepAwait
  split
  · split <;> simp
  · exact State.send_ne_refused

theorem stepValidate_ne_refused : stepValidate s ≠ .refused r := by
  intro h
  unfold stepValidate at h
  split at h
  · cases h
  · split at h
    · rename_i i hi
      obtain ⟨f, rfl, -⟩ := exec_refused h
      cases fetchLine_format hi
    · cases h

/-- DISPATCH refuses only a DATA record (42_record_dispatch.md R107, 43_flash_reconcile.md R124). -/
theorem stepDispatch_refused (h : stepDispatch s = .refused r) : s.latch.rt = 0x00#8 ∧ r = .sharedStraddle := by
  unfold stepDispatch at h
  split at h
  · rename_i i hi
    obtain ⟨f, rfl, hr⟩ := exec_refused h
    rcases ofRecord_ok hi with ⟨h0, -⟩ | ⟨-, e⟩ | ⟨-, _, _, -, e⟩ | ⟨-, -, -, -, hd, -⟩
    · exact ⟨h0, hr⟩
    · cases e
    · cases e
    · exact absurd rfl (hd f)
  · cases h

theorem stepErase_ne_refused : stepErase s ≠ .refused r := by
  unfold stepErase
  split
  · exact State.command_ne_refused
  · unfold eraseRmw
    split
    · exact State.command_ne_refused
    · split
      · simp
      · exact State.command_ne_refused
  · simp

theorem stepWrite_ne_refused : stepWrite s ≠ .refused r := by
  unfold stepWrite
  split
  · exact State.command_ne_refused
  · exact State.command_ne_refused
  · simp

theorem stepAcknowledge_ne_refused : stepAcknowledge s ≠ .refused r := by
  unfold stepAcknowledge; split <;> exact State.send_ne_refused

theorem stepResetting_ne_refused : stepResetting s ≠ .refused r := by
  unfold stepResetting
  split
  · exact State.send_ne_refused
  · simp
  · simp

/-- The action of a state refuses nothing but a DATA record that straddles the shared unit (R124). -/
theorem stepState_refused (h : stepState s = .refused r) :
    s.st = .dispatch ∧ s.latch.rt = 0x00#8 ∧ r = .sharedStraddle := by
  unfold stepState at h
  split at h
  · exact absurd h stepAwait_ne_refused
  · exact absurd h stepValidate_ne_refused
  · exact ⟨‹_›, stepDispatch_refused h⟩
  · exact absurd h stepErase_ne_refused
  · exact absurd h stepWrite_ne_refused
  · exact absurd h stepAcknowledge_ne_refused
  · exact absurd h stepResetting_ne_refused
  · cases h

/-- What a step refuses: an illegal configuration (10_state.md R33), or what the action of the state refuses. -/
theorem step_refused (h : step s = .refused r) :
    (configLegal s.cfg = false ∧ r = .illegalConfiguration) ∨ (s.running ∧ stepState s = .refused r) := by
  unfold step stepBlock at h
  split at h
  · cases h; exact .inl ⟨‹_›, rfl⟩
  · rename_i hc
    split at h
    · cases h
    · rename_i hr; exact .inr ⟨⟨by simpa using hc, by simpa using hr⟩, h⟩

/-- A step refuses with `illegalConfiguration` exactly if the check of R33 fails: the only other refusal has a name of
its own. -/
theorem step_illegalConfiguration_iff : step s = .refused .illegalConfiguration ↔ configLegal s.cfg = false := by
  constructor
  · intro h
    rcases step_refused h with ⟨hc, -⟩ | ⟨-, h⟩
    · exact hc
    · obtain ⟨-, -, e⟩ := stepState_refused h
      cases e
  · intro hc
    simp [step, stepBlock, hc]

end

/-- Settles O44: a step refuses a configuration exactly if it breaks a constraint of R7-R11. -/
theorem illegalConfigurationIsRefused : Obligations.IllegalConfigurationIsRefused := by
  intro s
  rw [step_illegalConfiguration_iff, ← Bool.not_eq_true, configLegal_iff]

end Sys2Proof.Machine

/-! PROOFS. The invariant of the registers, buffers, latch and flash (10_state.md R37): reset meets it and every move keeps
it. The work is in receiving a byte and in the choice of a DATA record's path; the other moves are composed of a few
updates, each with its own lemma. -/

namespace Sys2Proof.Machine

section
variable {s t : State} {b : Byte} {rest l : List Byte}

/-! ### Storing a byte (40_line_receive.md R80) -/

/-- A byte stored in the first free place of a buffer extends its line by one. -/
theorem take_set_succ {buf : List Byte} {n : Nat} (h : n < buf.length) :
    (buf.set n b).take (n + 1) = buf.take n ++ [b] := by
  have hn : (buf.take n).length = n := List.length_take_of_le (Nat.le_of_lt h)
  rw [List.set_eq_take_append_cons_drop, if_pos h, List.take_append, hn, List.take_of_length_le (by omega)]
  simp

theorem State.storeByte_of_sel_false (hs : s.sel = false) :
    s.storeByte b rest =
      { s with buf0 := s.buf0.set s.len0 b, len0 := s.len0 + 1, rx := rest, trace := .rx b :: s.trace } := by
  simp [State.storeByte, hs]

theorem State.storeByte_of_sel_true (hs : s.sel = true) :
    s.storeByte b rest =
      { s with buf1 := s.buf1.set s.len1 b, len1 := s.len1 + 1, rx := rest, trace := .rx b :: s.trace } := by
  simp [State.storeByte, hs]

theorem State.unitOpen_iff_of_sel_false (hs : s.sel = false) :
    s.unitOpen ↔ s.len0 < s.cfg.lineCap ∧ Byte.cr ∉ s.line0 ∧ s.len1 = 0 := by
  simp [State.unitOpen, hs]

theorem State.unitOpen_iff_of_sel_true (hs : s.sel = true) :
    s.unitOpen ↔ lineWhole s.cfg.lineCap s.line0 ∧ s.len1 < s.cfg.lineCap ∧ Byte.cr ∉ s.line1 := by
  simp [State.unitOpen, hs]

/-! ### What follows a stored byte (R81, R83, R84) -/

theorem State.stageOk_of_await (hst : s.st = .await)
    (h : (s.ph = 0 ∧ s.unitOpen) ∨ (s.ph = 1 ∧ s.unitReceived)) : s.stageOk := by
  simpa [State.stageOk, hst] using h

/-- R81: the last byte of a line completes it. -/
theorem lineWhole_append {c : Config} (hcr : Byte.cr ∉ l) (h : lineComplete c (l ++ [b]).length b = true) :
    lineWhole c.lineCap (l ++ [b]) := by
  refine ⟨by simp, by simpa using hcr, ?_⟩
  simpa [lineComplete] using h

/-- R81: a byte that does not complete the line leaves room in the buffer, and no CR. -/
theorem line_open_append {c : Config} (hcr : Byte.cr ∉ l) (hroom : l.length < c.lineCap)
    (h : lineComplete c (l ++ [b]).length b = false) : (l ++ [b]).length < c.lineCap ∧ Byte.cr ∉ l ++ [b] := by
  simp only [lineComplete, Bool.or_eq_false_iff, beq_eq_false_iff_ne, List.length_append, List.length_singleton] at h
  obtain ⟨hb, hlen⟩ := h
  exact ⟨by simp; omega, by simpa [hcr] using hb.symm⟩

theorem State.afterByte_cases (s : State) (b : Byte) :
    (lineComplete s.cfg s.lenSel b = false ∧ s.afterByte b = s) ∨
    (lineComplete s.cfg s.lenSel b = true ∧ s.cfg.redundant = true ∧ s.sel = false ∧
      s.afterByte b = { s with sel := true }) ∨
    (lineComplete s.cfg s.lenSel b = true ∧ (s.cfg.redundant = true → s.sel = true) ∧ s.afterByte b = s.nextPhase) := by
  unfold State.afterByte
  split
  · rename_i hc
    split
    · rename_i hr
      simp only [Bool.and_eq_true, Bool.not_eq_true'] at hr
      exact .inr (.inl ⟨hc, hr.1, hr.2, rfl⟩)
    · rename_i hr
      exact .inr (.inr ⟨hc, by simpa using hr, rfl⟩)
  · rename_i hc
    exact .inl ⟨by simpa using hc, rfl⟩

/-- A byte stored in buffer 0 after the line `l`: the line goes on, or the pair's second line begins, or XOFF is due. -/
theorem State.stageOk_afterByte_of_sel_false (hst : s.st = .await) (hp : s.ph = 0) (hs : s.sel = false)
    (hline : s.line0 = l ++ [b]) (hlen : s.len0 = (l ++ [b]).length) (h1 : s.len1 = 0) (hcr : Byte.cr ∉ l)
    (hroom : l.length < s.cfg.lineCap) : (s.afterByte b).stageOk := by
  have hsel : s.lenSel = (l ++ [b]).length := by simp [State.lenSel, hs, hlen]
  rcases s.afterByte_cases b with ⟨hc, e⟩ | ⟨hc, -, -, e⟩ | ⟨hc, hred, e⟩ <;> rw [hsel] at hc <;> rw [e]
  · obtain ⟨hlt, hcr'⟩ := line_open_append hcr hroom hc
    exact stageOk_of_await hst (.inl ⟨hp, (unitOpen_iff_of_sel_false hs).2 ⟨hlen ▸ hlt, hline ▸ hcr', h1⟩⟩)
  · have hwhole : lineWhole s.cfg.lineCap s.line0 := hline ▸ lineWhole_append hcr hc
    have hempty : s.line1 = [] := by simp [State.line1, h1]
    exact stageOk_of_await hst (.inl ⟨hp, (unitOpen_iff_of_sel_true rfl).2
      ⟨hwhole, show s.len1 < s.cfg.lineCap by omega, show Byte.cr ∉ s.line1 by simp [hempty]⟩⟩)
  · have hwhole : lineWhole s.cfg.lineCap s.line0 := hline ▸ lineWhole_append hcr hc
    exact stageOk_of_await hst (.inr ⟨congrArg (· + 1) hp, hwhole, fun hr => by simp [hred hr] at hs⟩)

/-- A byte stored in buffer 1 after the line `l`: the line goes on, or XOFF is due. -/
theorem State.stageOk_afterByte_of_sel_true (hst : s.st = .await) (hp : s.ph = 0) (hs : s.sel = true)
    (hfirst : lineWhole s.cfg.lineCap s.line0) (hline : s.line1 = l ++ [b]) (hlen : s.len1 = (l ++ [b]).length)
    (hcr : Byte.cr ∉ l) (hroom : l.length < s.cfg.lineCap) : (s.afterByte b).stageOk := by
  have hsel : s.lenSel = (l ++ [b]).length := by simp [State.lenSel, hs, hlen]
  rcases s.afterByte_cases b with ⟨hc, e⟩ | ⟨-, -, hs', -⟩ | ⟨hc, -, e⟩
  · rw [hsel] at hc
    obtain ⟨hlt, hcr'⟩ := line_open_append hcr hroom hc
    rw [e]
    exact stageOk_of_await hst (.inl ⟨hp, (unitOpen_iff_of_sel_true hs).2 ⟨hfirst, hlen ▸ hlt, hline ▸ hcr'⟩⟩)
  · rw [hs] at hs'; cases hs'
  · rw [hsel] at hc
    have hwhole : lineWhole s.cfg.lineCap s.line1 := hline ▸ lineWhole_append hcr hc
    rw [e]
    exact stageOk_of_await hst (.inr ⟨congrArg (· + 1) hp, hfirst, fun _ => hwhole⟩)

/-- The second line of a pair begins in redundant mode only; the rest of the registers keep their sizes. -/
theorem State.afterByte_shape (s : State) (b : Byte) :
    ∃ x p, s.afterByte b = { s with sel := x, ph := p } ∧ (s.cfg.redundant = false → x = s.sel) := by
  rcases s.afterByte_cases b with ⟨-, e⟩ | ⟨-, hr, -, e⟩ | ⟨-, -, e⟩
  · exact ⟨_, _, e, fun _ => rfl⟩
  · exact ⟨_, _, e, by simp [hr]⟩
  · exact ⟨_, _, e, fun _ => rfl⟩

namespace Inv

theorem line0_length (hi : Inv s) : s.line0.length = s.len0 := List.length_take_of_le (hi.len0.trans hi.buf0.ge)

theorem line1_length (hi : Inv s) : s.line1.length = s.len1 := List.length_take_of_le (hi.len1.trans hi.buf1.ge)

theorem unitOpen (hi : Inv s) (hst : s.st = .await) (hp : s.ph = 0) : s.unitOpen := by
  have h := hi.stage
  rw [State.stageOk, hst] at h
  rcases h with ⟨-, h⟩ | ⟨h1, -⟩
  · exact h
  · omega

theorem receive_buffer0 (hi : Inv s) (hst : s.st = .await) (hp : s.ph = 0) (hs : s.sel = false) :
    Inv ((s.storeByte b rest).afterByte b) := by
  obtain ⟨hroom, hcr, hempty⟩ := (State.unitOpen_iff_of_sel_false hs).1 (hi.unitOpen hst hp)
  have hstage : ((s.storeByte b rest).afterByte b).stageOk := by
    rw [State.storeByte_of_sel_false hs]
    exact State.stageOk_afterByte_of_sel_false (l := s.line0) hst hp hs (take_set_succ (hi.buf0.symm ▸ hroom))
      (by simp [hi.line0_length]) hempty hcr (hi.line0_length.symm ▸ hroom)
  obtain ⟨x, p, e, hx⟩ := (s.storeByte b rest).afterByte_shape b
  rw [e] at hstage ⊢
  rw [State.storeByte_of_sel_false hs] at hstage hx ⊢
  exact { hi with
    buf0 := by simp [hi.buf0]
    len0 := hroom
    single := fun hr => ⟨(hx hr).trans hs, hempty⟩
    stage := hstage }

theorem receive_buffer1 (hi : Inv s) (hst : s.st = .await) (hp : s.ph = 0) (hs : s.sel = true) :
    Inv ((s.storeByte b rest).afterByte b) := by
  obtain ⟨hfirst, hroom, hcr⟩ := (State.unitOpen_iff_of_sel_true hs).1 (hi.unitOpen hst hp)
  have hstage : ((s.storeByte b rest).afterByte b).stageOk := by
    rw [State.storeByte_of_sel_true hs]
    exact State.stageOk_afterByte_of_sel_true (l := s.line1) hst hp hs hfirst (take_set_succ (hi.buf1.symm ▸ hroom))
      (by simp [hi.line1_length]) hcr (hi.line1_length.symm ▸ hroom)
  obtain ⟨x, p, e, -⟩ := (s.storeByte b rest).afterByte_shape b
  rw [e] at hstage ⊢
  rw [State.storeByte_of_sel_true hs] at hstage ⊢
  exact { hi with
    buf1 := by simp [hi.buf1]
    len1 := hroom
    single := fun hr => by simp [(hi.single hr).1] at hs
    stage := hstage }

/-- Receiving a byte keeps the invariant (R80-R84). -/
theorem receive (hi : Inv s) (hst : s.st = .await) (hp : s.ph = 0) : Inv ((s.storeByte b rest).afterByte b) := by
  cases hs : s.sel with
  | false => exact hi.receive_buffer0 hst hp hs
  | true => exact hi.receive_buffer1 hst hp hs

end Inv

/-! ### The choice of a DATA record's path (42_record_dispatch.md R109, 43_flash_reconcile.md R121-R125) -/

/-- R125: a normal record erases only from a unit's first word on. -/
theorem mod_eq_zero_of_eraseNeeded {e : Nat} {w : Word} {n : Option Word} (h : eraseNeeded e w n = true) :
    w.toNat % e = 0 := by
  simp only [eraseNeeded, Bool.and_eq_true, beq_iff_eq] at h
  exact h.1

/-- The stage of ERASE at its entry, for a record whose path was chosen as R123-R125 say. -/
theorem State.stageOk_of_erase (hst : s.st = .erase) (hp : s.ph = 0) (hu : s.unitReceived) (hd : s.dataLatched)
    (hg : s.cfg.eraseWords ≠ s.cfg.writeWords)
    (ha : s.path = .normal → s.w.toNat % s.cfg.eraseWords.toNat = 0) : s.stageOk := by
  rw [State.stageOk, hst]
  exact ⟨hu, hd, hg, .inl hp, ha⟩

theorem State.stageOk_of_write (hst : s.st = .write) (hp : s.ph = 0) (hu : s.unitReceived) (hd : s.dataLatched) :
    s.stageOk := by
  rw [State.stageOk, hst]
  exact ⟨hp, hu, hd⟩

theorem State.stageOk_of_acknowledge (hst : s.st = .acknowledge) (hp : s.ph = 0) (hu : s.unitReceived) :
    s.stageOk := by
  rw [State.stageOk, hst]
  exact ⟨hu, .inl hp⟩

/-- The state that DISPATCH leaves for an unprotected record on path `p`: its addresses and its path are latched. -/
theorem State.dataLatched_takePath {p : Path} {x : St} (hrec : s.recordLatched) (h0 : s.latch.rt = 0x00#8)
    (hrc : s.latch.rc ≠ 0#8) {u : State} (hu : u = s.latchAddresses s.latch.fields)
    (ho : overlapsLoader u.cfg u.w u.wl = false)
    (hn : p = .normal → u.cfg.eraseWords = u.cfg.writeWords ∨
      ∀ a, u.cfg.sharedUnit = some a → meetsUnit a u.cfg.eraseWords.toNat u.w u.wl = false)
    (hr : p = .rmw → u.cfg.eraseWords ≠ u.cfg.writeWords ∧
      ∃ a, u.cfg.sharedUnit = some a ∧ insideUnit a u.cfg.eraseWords.toNat u.w u.wl = true) :
    (u.takePath p x).dataLatched := by
  subst hu
  exact ⟨hrec, h0, hrc, rfl, rfl, rfl, ho, hn, hr⟩

theorem Inv.dispatch (hi : Inv s) (hst : s.st = .dispatch) : s.unitReceived ∧ s.recordLatched := by
  have h := hi.stage
  rw [State.stageOk, hst] at h
  exact h.2

/-- DATA keeps the invariant on each of its paths, the protected and the empty record included. -/
theorem Inv.data (hi : Inv s) (hst : s.st = .dispatch) (h0 : s.latch.rt = 0x00#8)
    (h : execData s.latch.fields s = .next t) : Inv t := by
  obtain ⟨hunit, hrec⟩ := hi.dispatch hst
  rcases execData_next h with ⟨-, rfl⟩ | ⟨-, -, rfl⟩ | ⟨hrc, ho, h⟩
  · exact { hi with stage := State.stageOk_of_acknowledge rfl rfl hunit }
  · exact { hi with stage := State.stageOk_of_acknowledge rfl rfl hunit }
  rcases State.chooseWrite_next h with ⟨he, rfl⟩ | ⟨he, a, ha, -, hin, rfl⟩ | ⟨he, hout, rfl⟩
  · have hd := State.dataLatched_takePath (p := .normal) (x := .write) hrec h0 hrc rfl ho (fun _ => .inl he) nofun
    exact { hi with stage := State.stageOk_of_write rfl rfl hunit hd }
  · have hd := State.dataLatched_takePath (p := .rmw) (x := .erase) hrec h0 hrc rfl ho nofun fun _ => ⟨he, a, ha, hin⟩
    exact { hi with stage := State.stageOk_of_erase rfl rfl hunit hd he nofun }
  · have hd (x : St) := State.dataLatched_takePath (p := .normal) (x := x) hrec h0 hrc rfl ho (fun _ => .inr hout) nofun
    rcases (s.latchAddresses s.latch.fields).normalPath_cases with ⟨hneed, e⟩ | ⟨-, e⟩ <;> rw [e]
    · exact { hi with
        stage := State.stageOk_of_erase rfl rfl hunit (hd _) he fun _ => mod_eq_zero_of_eraseNeeded hneed }
    · exact { hi with stage := State.stageOk_of_write rfl rfl hunit (hd _) }

/-! ### Reset (10_state.md R36, R43) -/

/-- The start of a session meets the invariant. -/
theorem inv_resetWith {c : Config} (d : Device) {m : Memory} (hl : configLegal c = true) (hm : m.wf = true) :
    Inv (State.resetWith c d m) where
  legal := hl
  buf0 := List.length_replicate
  buf1 := List.length_replicate
  len0 := Nat.zero_le _
  len1 := Nat.zero_le _
  scratch := List.length_replicate
  single := fun _ => ⟨rfl, rfl⟩
  flash := hm
  stage := by
    obtain ⟨-, -, -, -, -, hcap⟩ := (configLegal_iff c).1 hl
    have ho : (State.resetWith c d m).unitOpen :=
      (State.unitOpen_iff_of_sel_false rfl).2 ⟨hcap, by simp [State.line0], rfl⟩
    exact .inl ⟨rfl, ho⟩

theorem gateInv_resetWith (c : Config) (d : Device) (m : Memory) : GateInv (State.resetWith c d m) where
  gated := rfl
  opened := fun _ => rfl
  closed := by simp

/-- Settles O54: the base case of O55 and of O56. -/
theorem invariantsHoldAtReset : Obligations.InvariantsHoldAtReset :=
  fun c d m hl hm => ⟨inv_resetWith d hl hm, gateInv_resetWith c d m⟩

/-- RST keeps what the start of a session does not fix: the bytes at RX, the readiness of the collaborators, the
history (log entry 6). -/
theorem Inv.takeReset (hi : Inv s) : Inv s.takeReset := { inv_resetWith s.device hi.legal hi.flash with }

/-! ### Transactions -/

namespace Inv

theorem emit (hi : Inv s) (e : Event) : Inv (s.emit e) := { hi with }

theorem flashErase (hi : Inv s) (a : Word) : Inv (s.flashErase a) := by
  have hf := State.flashErase_flash_wf a hi.flash
  obtain ⟨m, e⟩ := flashErase_shape s a
  rw [e] at hf ⊢
  exact { hi with flash := hf }

theorem flashWrite (hi : Inv s) (a : Word) (d : List Byte) (n : Nat) : Inv (s.flashWrite a d n) := by
  have hf := State.flashWrite_flash_wf a d n hi.flash
  obtain ⟨m, e⟩ := flashWrite_shape s a d n
  rw [e] at hf ⊢
  exact { hi with flash := hf }

/-! ### From stage to stage (10_state.md R23, R32) -/

/-- Only AWAIT is entered without a complete unit (R81, R84). -/
theorem unitReceived (hi : Inv s) (hst : s.st ≠ .await) : s.unitReceived := by
  have h := hi.stage
  unfold State.stageOk at h
  split at h
  · exact absurd ‹_› hst
  · exact h.2
  · exact h.2.1
  · exact h.1
  · exact h.2.1
  · exact h.1
  · exact h.1
  · exact h.elim

theorem goto_validate (hi : Inv s) (hst : s.st = .await) (hp : s.ph ≠ 0) : Inv (s.goto .validate) := by
  have h := hi.stage
  rw [State.stageOk, hst] at h
  rcases h with ⟨h0, -⟩ | ⟨-, hunit⟩
  · exact absurd h0 hp
  · exact { hi with stage := ⟨rfl, hunit⟩ }

theorem reject (hi : Inv s) (hst : s.st ≠ .await) (v : Verdict) : Inv (s.reject v) :=
  { hi with stage := State.stageOk_of_acknowledge rfl rfl (hi.unitReceived hst) }

theorem acceptNonrecord (hi : Inv s) (hst : s.st ≠ .await) : Inv s.acceptNonrecord :=
  { hi with stage := State.stageOk_of_acknowledge rfl rfl (hi.unitReceived hst) }

/-- Latching the record of the received line makes it the one of DISPATCH (41_record_validate.md R104). -/
theorem acceptRecord (hi : Inv s) (hst : s.st ≠ .await) {r : Record} (hpair : s.pairDiffers = false)
    (hcolon : s.line0.head? = some Byte.colon) (hparse : parse (content s.line0) = .ok r) : Inv (s.acceptRecord r) :=
  { hi with stage := ⟨rfl, hi.unitReceived hst, hcolon, hparse, hpair, rfl, rfl⟩ }

theorem goto_acknowledge (hi : Inv s) (hst : s.st ≠ .await) : Inv (s.goto .acknowledge) :=
  { hi with stage := State.stageOk_of_acknowledge rfl rfl (hi.unitReceived hst) }

theorem goto_resetting (hi : Inv s) (hst : s.st = .dispatch) (h1 : s.latch.rt = 0x01#8) : Inv (s.goto .resetting) := by
  obtain ⟨hunit, hrec⟩ := hi.dispatch hst
  exact { hi with stage := ⟨hunit, hrec, h1, Nat.zero_le _⟩ }

theorem erase (hi : Inv s) (hst : s.st = .erase) :
    s.dataLatched ∧ s.cfg.eraseWords ≠ s.cfg.writeWords := by
  have h := hi.stage
  rw [State.stageOk, hst] at h
  obtain ⟨-, hd, hg, -⟩ := h
  exact ⟨hd, hg⟩

/-- The next phase of the read-modify-write, with another scratch buffer of the same size (R31, R128). -/
theorem nextPhase_rmw (hi : Inv s) (hst : s.st = .erase) (hpath : s.path = .rmw) (hp : s.ph < 2) {d : List Byte}
    (hlen : d.length = 2 * s.cfg.eraseWords.toNat) : Inv ({ s with scratch := d } : State).nextPhase := by
  obtain ⟨hd, hg⟩ := hi.erase hst
  refine { hi with scratch := hlen, stage := ?_ }
  simp only [State.stageOk, State.nextPhase_st, hst]
  exact ⟨hi.unitReceived (by simp [hst]), hd, hg, .inr ⟨hpath, hp⟩, fun hn => absurd (hpath.symm.trans hn) nofun⟩

theorem goto_write (hi : Inv s) (hst : s.st = .erase) : Inv (s.goto .write) := by
  obtain ⟨hd, -⟩ := hi.erase hst
  exact { hi with stage := State.stageOk_of_write rfl rfl (hi.unitReceived (by simp [hst])) hd }

theorem wrote (hi : Inv s) (hst : s.st ≠ .await) : Inv s.wrote :=
  { hi with stage := State.stageOk_of_acknowledge rfl rfl (hi.unitReceived hst) }

theorem nextPhase_acknowledge (hi : Inv s) (hst : s.st = .acknowledge) (hp : s.ph = 0) (hok : s.ackOk = true) :
    Inv s.nextPhase := by
  refine { hi with stage := ?_ }
  simp only [State.stageOk, State.nextPhase_st, hst]
  exact ⟨hi.unitReceived (by simp [hst]), .inr ⟨congrArg (· + 1) hp, hok⟩⟩

/-- Emptied lines are open for the next unit (40_line_receive.md R89). -/
theorem clearLines_goto_await (hi : Inv s) : Inv (s.clearLines.goto .await) := by
  obtain ⟨-, -, -, -, -, hcap⟩ := (configLegal_iff s.cfg).1 hi.legal
  have ho : (s.clearLines.goto .await).unitOpen :=
    (State.unitOpen_iff_of_sel_false rfl).2 ⟨hcap, by simp [State.line0, State.clearLines], rfl⟩
  exact { hi with
    len0 := Nat.zero_le _
    len1 := Nat.zero_le _
    single := fun _ => ⟨rfl, rfl⟩
    stage := .inl ⟨rfl, ho⟩ }

/-- A transaction of the sequence that is still to come leaves the phase within it (42_record_dispatch.md R111). -/
theorem nextPhase_resetting (hi : Inv s) (hst : s.st = .resetting) {e : Event}
    (h : (resettingOps s.cfg)[s.ph]? = some e) : Inv s.nextPhase := by
  obtain ⟨hlt, -⟩ := List.getElem?_eq_some_iff.1 h
  have hs := hi.stage
  simp only [State.stageOk, hst] at hs
  obtain ⟨hunit, hrec, hrt, -⟩ := hs
  refine { hi with stage := ?_ }
  simp only [State.stageOk, State.nextPhase_st, hst]
  exact ⟨hunit, hrec, hrt, hlt⟩

end Inv

/-! ### A step -/

/-- Every move of a running block keeps the invariant. -/
theorem Move.inv (m : Move s t) (hi : Inv s) : Inv t := by
  cases m with
  | wait same why => rwa [same]
  | receive b rest st ph rx eq => rw [eq]; exact hi.receive st ph
  | xoff st ph ready eq => rw [eq]; exact (hi.emit _).goto_validate st ph
  | mismatch st pair eq => rw [eq]; exact hi.reject (by simp [st]) _
  | nonrecord c cs st pair line ne eq => rw [eq]; exact hi.acceptNonrecord (by simp [st])
  | rejected e st pair colon parsed eq => rw [eq]; exact hi.reject (by simp [st]) _
  | accepted r st pair colon parsed eq => rw [eq]; exact hi.acceptRecord (by simp [st]) pair colon parsed
  | data st rt eq => exact hi.data st rt eq
  | eof st rt eq => rw [eq]; exact hi.goto_resetting st rt
  | extaddr _ _ st rt rd eq => rw [eq]; exact { hi.goto_acknowledge (by simp [st]) with }
  | ignored st ne0 ne1 ne4 eq => rw [eq]; exact hi.goto_acknowledge (by simp [st])
  | erase st path done eq => rw [eq]; exact (hi.flashErase _).goto_write (by simp [st])
  | rmwRead u st path unit ph done eq =>
    rw [eq]; exact { hi.nextPhase_rmw st path (by omega) (State.flashAnswer_length s u _) with }
  | rmwMerge u st path unit ph eq =>
    rw [eq]; exact hi.nextPhase_rmw st path (by omega) (by simp [hi.scratch])
  | rmwErase u st path unit ph0 ph1 done eq => rw [eq]; exact (hi.flashErase _).goto_write (by simp [st])
  | write st path done eq => rw [eq]; exact (hi.flashWrite _ _ _).wrote (by simp [st])
  | rmwWrite u st path unit done eq => rw [eq]; exact (hi.flashWrite _ _ _).wrote (by simp [st])
  | ack st ready ph ok eq => rw [eq]; exact (hi.emit _).nextPhase_acknowledge st ph ok
  | xon st ready last eq => rw [eq]; exact (hi.emit _).clearLines_goto_await
  | resetSend b st op ready eq => rw [eq]; exact (hi.emit _).nextPhase_resetting st op
  | deviceReset st op eq => rw [eq]; exact (hi.emit _).nextPhase_resetting st op

/-- Settles O55: a step is RST or a move, and both keep the invariant. -/
theorem stepKeepsTheInvariant : Obligations.StepKeepsTheInvariant := by
  intro s t hi h
  obtain ⟨hl, ⟨-, rfl⟩ | ⟨hr, -⟩⟩ := step_next h
  · exact hi.takeReset
  · exact (step_move ⟨hl, hr⟩ h).inv hi

end

end Sys2Proof.Machine

/-! PROOFS. The registers (10_state.md R22, R23, R26, R33, R36, R43): what a move writes of the configuration, of `ext` and
of the state register, the encodings, and reset. -/

namespace Sys2Proof.Machine

section
variable {s t : State}

/-! ### What no move, and which move, writes -/

theorem Move.cfg_eq (m : Move s t) : t.cfg = s.cfg := by
  cases m with
  | wait same why => rw [same]
  | receive b rest st ph rx eq => obtain ⟨_, _, _, _, _, _, e⟩ := receive_shape s b rest; rw [eq, e]
  | data st rt eq => obtain ⟨_, _, _, _, _, _, e⟩ := execData_shape eq; rw [e]
  | _ => subst t; simp

/-- `ext` is written by EXTADDR alone (R26). -/
theorem Move.ext_cases (m : Move s t) :
    t.ext = s.ext ∨ ∃ hi lo, s.st = .dispatch ∧ s.latch.rt = 0x04#8 ∧ s.latch.rd = [hi, lo] ∧
      t.ext = hi.setWidth 16 <<< 8 ||| lo.setWidth 16 := by
  cases m with
  | wait same why => exact .inl (by rw [same])
  | receive b rest st ph rx eq => obtain ⟨_, _, _, _, _, _, e⟩ := receive_shape s b rest; exact .inl (by rw [eq, e])
  | data st rt eq => obtain ⟨_, _, _, _, _, _, e⟩ := execData_shape eq; exact .inl (by rw [e])
  | extaddr hi lo st rt rd eq => exact .inr ⟨hi, lo, st, rt, rd, by rw [eq]; rfl⟩
  | _ => subst t; exact .inl (by simp)

end

/-- Settles O49: RST keeps the configuration, and so does every move. -/
theorem configurationNeverChanges : Obligations.ConfigurationNeverChanges := by
  intro s t h
  obtain ⟨hl, ⟨-, rfl⟩ | ⟨hr, -⟩⟩ := step_next h
  · exact s.takeReset_cfg
  · exact (step_move ⟨hl, hr⟩ h).cfg_eq

/-- Settles O48: the two payload bytes of EXTADDR are the high and the low byte of `ext`. -/
theorem extIsWrittenOnlyByExtaddr : Obligations.ExtIsWrittenOnlyByExtaddr := by
  intro s t hr h
  rcases (step_move hr h).ext_cases with e | ⟨hi, lo, st, rt, rd, e⟩
  · exact .inl e
  · refine .inr ⟨st, rt, hi, lo, rd, ?_⟩
    have h1 := hi.isLt
    have h2 := lo.isLt
    rw [e, half_eq_ofNat, BitVec.toNat_ofNat, Nat.mod_eq_of_lt (by omega)]

/-- Settles O46: each move stays in its state or takes one row of the table. -/
theorem transitionTable : Obligations.TransitionTable := by
  intro s t hr h
  cases step_move hr h with
  | wait same why => exact .inl (by rw [same])
  | receive b rest st ph rx eq => obtain ⟨_, _, _, _, _, _, e⟩ := receive_shape s b rest; exact .inl (by rw [eq, e])
  | xoff st ph ready eq => rw [eq]; simp [st]
  | mismatch st pair eq => rw [eq]; simp [st]
  | nonrecord c cs st pair line ne eq => rw [eq]; simp [st]
  | rejected e st pair colon parsed eq => rw [eq]; simp [st]
  | accepted r st pair colon parsed eq => rw [eq]; simp [st]
  | data st rt eq =>
    obtain ⟨x, _, _, _, _, hx, e⟩ := execData_shape eq
    rcases hx with rfl | rfl | rfl <;> rw [e] <;> simp [st, rt]
  | eof st rt eq => rw [eq]; simp [st, rt]
  | extaddr hi lo st rt rd eq => rw [eq]; simp [st, rt]
  | ignored st ne0 ne1 ne4 eq => rw [eq]; simp [st, ne1]
  | erase st path done eq => rw [eq]; simp [st]
  | rmwRead u st path unit ph done eq => rw [eq]; simp
  | rmwMerge u st path unit ph eq => rw [eq]; simp
  | rmwErase u st path unit ph0 ph1 done eq => rw [eq]; simp [st]
  | write st path done eq => rw [eq]; simp [st]
  | rmwWrite u st path unit done eq => rw [eq]; simp [st]
  | ack st ready ph ok eq => rw [eq]; simp
  | xon st ready last eq => rw [eq]; simp [st]
  | resetSend b st op ready eq => rw [eq]; simp
  | deviceReset st op eq => rw [eq]; simp

/-! ### The encodings (R22, 60_exceptions.md R137) -/

@[simp] theorem St.ofCode_code (x : St) : St.ofCode x.code = x := by cases x <;> rfl

@[simp] theorem Verdict.ofCode_code (v : Verdict) : Verdict.ofCode v.code = v := by cases v <;> rfl

/-- Settles O45: the decoders of three bits are the inverses of the encodings. -/
theorem codesOfStatesAndVerdicts : Obligations.CodesOfStatesAndVerdicts :=
  ⟨rfl, rfl, St.ofCode_code, by decide, Verdict.ofCode_code, by decide⟩

/-- Settles O43: the code 7 is the unused value's alone. -/
theorem stateSevenIsStuck : Obligations.StateSevenIsStuck := by
  intro s hr h7
  have hst : s.st = .unused := by rw [← St.ofCode_code s.st, h7]; rfl
  rw [step_of_running hr.1 hr.2, stepState, hst]

/-! ### Reset (R36, R43) -/

theorem step_of_rst {s : State} (hl : configLegal s.cfg = true) (hr : s.rst = true) : step s = .next s.takeReset := by
  simp [step, stepBlock, hl, hr]

/-- Settles O41: the step is RST itself, whatever `st` is. -/
theorem rstResetsFromAnyState : Obligations.RstResetsFromAnyState :=
  fun s hl hr => ⟨s.takeReset, step_of_rst hl hr, rfl, rfl, rfl, rfl, rfl, rfl, rfl, rfl, rfl, rfl, rfl, fun _ => rfl⟩

/-- Settles O42: each register by its reset value, and the ports by what AWAIT shows in phase 0. -/
theorem resetValues : Obligations.ResetValues := by
  intro c d image
  simp [State.rxReady, State.txData, State.flRequest, St.code]

end Sys2Proof.Machine

/-! PROOFS. The ports (10_state.md R38-R44): the block offers at most one transaction, a step completes it exactly if its
collaborator answers, and waits otherwise. -/

namespace Sys2Proof.Machine

section
variable {s t : State}

/-! ### What the block offers -/

theorem State.rxReady_iff : s.rxReady = true ↔ s.st = .await ∧ s.ph = 0 := by simp [State.rxReady]

/-- R40: a byte to send is XOFF, XON or ACK, and it is offered in AWAIT after a unit, in ACKNOWLEDGE and in RESETTING. -/
theorem State.txData_cases {b : Byte} (h : s.txData = some b) :
    ((s.st = .await ∧ s.ph ≠ 0) ∨ s.st = .acknowledge ∨ s.st = .resetting) ∧
      (b = Byte.xoff ∨ b = Byte.xon ∨ b = Byte.ack) := by
  unfold State.txData at h
  split at h
  · split at h
    · cases h
    · cases h; exact ⟨.inl ⟨‹_›, ‹_›⟩, .inl rfl⟩
  · split at h <;> cases h
    · exact ⟨.inr (.inl ‹_›), .inr (.inr rfl)⟩
    · exact ⟨.inr (.inl ‹_›), .inr (.inl rfl)⟩
  · split at h
    · rename_i hop
      cases h
      rcases resettingOps_cases hop with e | e | e <;> cases e
      · exact ⟨.inr (.inr ‹_›), .inr (.inr rfl)⟩
      · exact ⟨.inr (.inr ‹_›), .inr (.inl rfl)⟩
    · cases h
  · cases h

/-- R41: a command is offered in ERASE and in WRITE. -/
theorem State.flRequest_cases {e : Event} (h : s.flRequest = some e) :
    (s.st = .erase ∨ s.st = .write) ∧ e ∈ flCommands [e] := by
  unfold State.flRequest at h
  split at h
  · cases h; exact ⟨.inl ‹_›, by simp [flCommands]⟩
  · split at h
    · cases h; exact ⟨.inl ‹_›, by simp [flCommands]⟩
    · split at h <;> cases h
      exact ⟨.inl ‹_›, by simp [flCommands]⟩
  · cases h; exact ⟨.inr ‹_›, by simp [flCommands]⟩
  · cases h; exact ⟨.inr ‹_›, by simp [flCommands]⟩
  · cases h

theorem State.txData_of_rxReady (h : s.rxReady = true) : s.txData = none := by
  obtain ⟨hst, hp⟩ := State.rxReady_iff.1 h
  simp [State.txData, hst, hp]

theorem State.flRequest_of_rxReady (h : s.rxReady = true) : s.flRequest = none := by
  obtain ⟨hst, -⟩ := State.rxReady_iff.1 h
  simp [State.flRequest, hst]

theorem State.txData_of_flRequest {e : Event} (h : s.flRequest = some e) : s.txData = none := by
  rcases (State.flRequest_cases h).1 with hst | hst <;> simp [State.txData, hst]

/-! ### Waiting -/

theorem State.send_of_not_ready {b : Byte} {k : State → State} (h : s.txReady = false) : s.send b k = .next s := by
  simp [State.send, h]

theorem State.command_of_not_done {k : State → State} (h : s.flDone = false) : s.command k = .next s := by
  simp [State.command, h]

theorem stepAwait_wait (hp : s.ph ≠ 0) (hr : s.txReady = false) : stepAwait s = .next s := by
  rw [stepAwait, if_neg hp, State.send_of_not_ready hr]

theorem stepAcknowledge_wait (hr : s.txReady = false) : stepAcknowledge s = .next s := by
  unfold stepAcknowledge
  split <;> exact State.send_of_not_ready hr

theorem stepResetting_wait {b : Byte} (hst : s.st = .resetting) (h : s.txData = some b) (hr : s.txReady = false) :
    stepResetting s = .next s := by
  simp only [State.txData, hst] at h
  unfold stepResetting
  split at h
  · rename_i hop
    rw [hop]
    exact State.send_of_not_ready hr
  · cases h

theorem stepErase_wait {e : Event} (hst : s.st = .erase) (h : s.flRequest = some e) (hd : s.flDone = false) :
    stepErase s = .next s := by
  unfold stepErase
  split
  · exact State.command_of_not_done hd
  · rename_i u hp hu
    unfold eraseRmw
    split
    · exact State.command_of_not_done hd
    · rename_i h0
      split
      · rename_i h1; simp [State.flRequest, hst, hp, hu, h1] at h
      · exact State.command_of_not_done hd
  · rename_i hp hu; simp [State.flRequest, hst, hp, hu] at h

theorem stepWrite_wait {e : Event} (hst : s.st = .write) (h : s.flRequest = some e) (hd : s.flDone = false) :
    stepWrite s = .next s := by
  unfold stepWrite
  split
  · exact State.command_of_not_done hd
  · exact State.command_of_not_done hd
  · rename_i hp hu; simp [State.flRequest, hst, hp, hu] at h

/-! ### The port a step uses -/

/-- What a step of a running block does at its ports (R44): nothing, because no offered transaction is answered, or one
completed transaction. -/
inductive PortUse (s t : State) : Prop
  | idle (trace : t.trace = s.trace) (rx : t.rx = s.rx) (flash : t.flash = s.flash)
      (noRx : ¬(s.rxReady = true ∧ s.rxValid = true)) (noTx : s.txData ≠ none → s.txReady = false)
      (noFl : s.flRequest ≠ none → s.flDone = false)
  | receive (b : Byte) (rest : List Byte) (ready : s.rxReady = true) (held : s.rx = b :: rest) (rx : t.rx = rest)
      (trace : t.trace = .rx b :: s.trace)
  | send (b : Byte) (offered : s.txData = some b) (ready : s.txReady = true) (rx : t.rx = s.rx)
      (trace : t.trace = .tx b :: s.trace)
  | command (e : Event) (requested : s.flRequest = some e) (done : s.flDone = true) (rx : t.rx = s.rx)
      (trace : t.trace = e :: s.trace)
  | rstreq (st : s.st = .resetting) (noTx : s.txData = none) (rx : t.rx = s.rx) (trace : t.trace = .rstreq :: s.trace)

namespace PortUse

/-- A step of VALIDATE or DISPATCH is an internal computation. -/
theorem internal (hst : s.st = .validate ∨ s.st = .dispatch) (htrace : t.trace = s.trace) (hrx : t.rx = s.rx)
    (hflash : t.flash = s.flash) : PortUse s t := by
  refine .idle htrace hrx hflash ?_ (fun h => absurd ?_ h) (fun h => absurd ?_ h)
  · rcases hst with h | h <;> simp [State.rxReady, h]
  · rcases hst with h | h <;> simp [State.txData, h]
  · rcases hst with h | h <;> simp [State.flRequest, h]

/-- A block that waits offers a transaction that its collaborator does not answer, or none. -/
theorem waiting
    (why : (s.st = .await ∧ s.ph = 0 ∧ s.rx = []) ∨ (s.txData ≠ none ∧ s.txReady = false) ∨
      (s.flRequest ≠ none ∧ s.flDone = false) ∨ (s.st = .resetting ∧ (resettingOps s.cfg)[s.ph]? = none)) :
    PortUse s s := by
  rcases why with ⟨hst, hp, hx⟩ | ⟨htx, hr⟩ | ⟨hfl, hd⟩ | ⟨hst, hop⟩
  · have ready := State.rxReady_iff.2 ⟨hst, hp⟩
    exact .idle rfl rfl rfl (by simp [State.rxValid, hx]) (absurd (State.txData_of_rxReady ready))
      (absurd (State.flRequest_of_rxReady ready))
  · refine .idle rfl rfl rfl (fun h => htx (State.txData_of_rxReady h.1)) (fun _ => hr) (fun h => ?_)
    obtain ⟨e, he⟩ := Option.ne_none_iff_exists'.1 h
    exact absurd (State.txData_of_flRequest he) htx
  · obtain ⟨e, he⟩ := Option.ne_none_iff_exists'.1 hfl
    exact .idle rfl rfl rfl (fun h => hfl (State.flRequest_of_rxReady h.1)) (absurd (State.txData_of_flRequest he))
      (fun _ => hd)
  · exact .idle rfl rfl rfl (by simp [State.rxReady, hst]) (absurd (by simp [State.txData, hst, hop]))
      (absurd (by simp [State.flRequest, hst]))

end PortUse

theorem Move.portUse (m : Move s t) : PortUse s t := by
  cases m with
  | wait same why => rw [same]; exact .waiting why
  | receive b rest st ph rx eq =>
    obtain ⟨_, _, _, _, _, _, e⟩ := receive_shape s b rest
    exact .receive b rest (State.rxReady_iff.2 ⟨st, ph⟩) rx (by rw [eq, e]) (by rw [eq, e])
  | xoff st ph ready eq => subst t; exact .send _ (by simp [State.txData, st, ph]) ready rfl rfl
  | mismatch st pair eq => subst t; exact .internal (.inl st) rfl rfl rfl
  | nonrecord c cs st pair line ne eq => subst t; exact .internal (.inl st) rfl rfl rfl
  | rejected e st pair colon parsed eq => subst t; exact .internal (.inl st) rfl rfl rfl
  | accepted r st pair colon parsed eq => subst t; exact .internal (.inl st) rfl rfl rfl
  | data st rt eq =>
    obtain ⟨_, _, _, _, _, _, e⟩ := execData_shape eq
    subst t; exact .internal (.inr st) rfl rfl rfl
  | eof st rt eq => subst t; exact .internal (.inr st) rfl rfl rfl
  | extaddr hi lo st rt rd eq => subst t; exact .internal (.inr st) rfl rfl rfl
  | ignored st ne0 ne1 ne4 eq => subst t; exact .internal (.inr st) rfl rfl rfl
  | erase st path done eq =>
    subst t
    exact .command _ (by simp [State.flRequest, st, path]) done (s.flashErase_rx _) (s.flashErase_trace _)
  | rmwRead u st path unit ph done eq =>
    subst t; exact .command _ (by simp [State.flRequest, st, path, unit, ph]) done rfl rfl
  | rmwMerge u st path unit ph eq =>
    subst t
    exact .idle rfl rfl rfl (by simp [State.rxReady, st]) (absurd (by simp [State.txData, st]))
      (absurd (by simp [State.flRequest, st, path, unit, ph]))
  | rmwErase u st path unit ph0 ph1 done eq =>
    subst t
    exact .command _ (by simp [State.flRequest, st, path, unit, ph0, ph1]) done (s.flashErase_rx _)
      (s.flashErase_trace _)
  | write st path done eq =>
    subst t
    exact .command _ (by simp [State.flRequest, st, path]) done (s.flashWrite_rx _ _ _) (s.flashWrite_trace _ _ _)
  | rmwWrite u st path unit done eq =>
    subst t
    exact .command _ (by simp [State.flRequest, st, path, unit]) done (s.flashWrite_rx _ _ _)
      (s.flashWrite_trace _ _ _)
  | ack st ready ph ok eq => subst t; exact .send _ (by simp [State.txData, st, ph, ok]) ready rfl rfl
  | xon st ready last eq => subst t; exact .send _ (by simp only [State.txData, st, if_neg last]) ready rfl rfl
  | resetSend b st op ready eq => subst t; exact .send b (by simp [State.txData, st, op]) ready rfl rfl
  | deviceReset st op eq => subst t; exact .rstreq st (by simp [State.txData, st, op]) rfl rfl

end

/-- Settles O40: `send` and `command` answer the state itself, and each offer is made by one of them. -/
theorem blockedTransactionsWait : Obligations.BlockedTransactionsWait := by
  intro s hr
  rw [step_of_running hr.1 hr.2]
  refine ⟨fun hst hp hx => ?_, fun h hn => ?_, fun h hn => ?_⟩
  · simp [stepState, stepAwait, hst, hp, hx]
  · obtain ⟨b, hb⟩ := Option.ne_none_iff_exists'.1 h
    rcases (State.txData_cases hb).1 with ⟨hst, hp⟩ | hst | hst <;> rw [stepState, hst]
    · exact stepAwait_wait hp hn
    · exact stepAcknowledge_wait hn
    · exact stepResetting_wait hst hb hn
  · obtain ⟨e, he⟩ := Option.ne_none_iff_exists'.1 h
    rcases (State.flRequest_cases he).1 with hst | hst <;> rw [stepState, hst]
    · exact stepErase_wait hst he hn
    · exact stepWrite_wait hst he hn

/-- Settles O50: the step that takes a byte is the one whose event is its reception. -/
theorem rxHandshake : Obligations.RxHandshake := by
  intro s t hr h
  refine ⟨fun hready => (State.rxReady_iff.1 hready).1, ?_⟩
  cases (step_move hr h).portUse with
  | idle trace rx flash noRx noTx noFl => exact .inr ⟨noRx, rx, by simp [trace]⟩
  | receive b rest ready held rx trace => exact .inl ⟨ready, by simp [State.rxValid, held], b, rest, held, rx, trace⟩
  | send b offered ready rx trace =>
    refine .inr ⟨fun hx => ?_, rx, by simp [trace]⟩
    simp [State.txData_of_rxReady hx.1] at offered
  | command e requested done rx trace =>
    refine .inr ⟨fun hx => ?_, rx, fun b hb => ?_⟩
    · simp [State.flRequest_of_rxReady hx.1] at requested
    · cases trace.symm.trans hb
      exact absurd (State.flRequest_cases requested).2 (by simp [flCommands])
  | rstreq st noTx rx trace => exact .inr ⟨by simp [State.rxReady, st], rx, by simp [trace]⟩

/-- Settles O51: the step that sends a byte is the one whose event is its transmission. -/
theorem txHandshake : Obligations.TxHandshake := by
  intro s t hr h
  cases (step_move hr h).portUse with
  | idle trace rx flash noRx noTx noFl =>
    exact ⟨fun b hb ready => by simp [noTx (by simp [hb])] at ready, by simp [trace]⟩
  | receive b rest ready held rx trace => exact ⟨by simp [State.txData_of_rxReady ready], by simp [trace]⟩
  | send b offered ready rx trace =>
    refine ⟨fun c hc _ => by rw [trace, Option.some.inj (offered.symm.trans hc)], fun c hc => ?_⟩
    cases trace.symm.trans hc
    exact ⟨offered, ready, (State.txData_cases offered).2⟩
  | command e requested done rx trace =>
    refine ⟨by simp [State.txData_of_flRequest requested], fun b hb => ?_⟩
    cases trace.symm.trans hb
    exact absurd (State.flRequest_cases requested).2 (by simp [flCommands])
  | rstreq st noTx rx trace => exact ⟨by simp [noTx], by simp [trace]⟩

/-- Settles O52: the step that completes a command is the one whose event is the command. -/
theorem flHandshake : Obligations.FlHandshake := by
  intro s t hr h
  cases (step_move hr h).portUse with
  | idle trace rx flash noRx noTx noFl =>
    exact ⟨fun e he done => by simp [noFl (by simp [he])] at done, by simp [trace]⟩
  | receive b rest ready held rx trace =>
    refine ⟨by simp [State.flRequest_of_rxReady ready], fun e ⟨he, hfl⟩ => ?_⟩
    cases trace.symm.trans he
    simp [flCommands] at hfl
  | send b offered ready rx trace =>
    refine ⟨fun e he => by simp [State.txData_of_flRequest he] at offered, fun e ⟨he, hfl⟩ => ?_⟩
    cases trace.symm.trans he
    simp [flCommands] at hfl
  | command e requested done rx trace =>
    refine ⟨fun f hf _ => by rw [trace, Option.some.inj (requested.symm.trans hf)], fun f ⟨hf, _⟩ => ?_⟩
    cases trace.symm.trans hf
    exact ⟨requested, done⟩
  | rstreq st noTx rx trace =>
    refine ⟨by simp [State.flRequest, st], fun e ⟨he, hfl⟩ => ?_⟩
    cases trace.symm.trans he
    simp [flCommands] at hfl

/-- Settles O53: RST and each use of a port add one event, and a step that uses no port leaves the channel and the
flash alone. -/
theorem oneTransactionAStep : Obligations.OneTransactionAStep := by
  intro s t h
  obtain ⟨hl, ⟨-, rfl⟩ | ⟨hr, -⟩⟩ := step_next h
  · exact .inr ⟨_, s.takeReset_trace⟩
  · cases (step_move ⟨hl, hr⟩ h).portUse with
    | idle trace rx flash noRx noTx noFl => exact .inl ⟨trace, rx, flash⟩
    | receive b rest ready held rx trace => exact .inr ⟨_, trace⟩
    | send b offered ready rx trace => exact .inr ⟨_, trace⟩
    | command e requested done rx trace => exact .inr ⟨_, trace⟩
    | rstreq st noTx rx trace => exact .inr ⟨_, trace⟩

end Sys2Proof.Machine

/-! PROOFS. The loader region (20_memory.md R54, 43_flash_reconcile.md R121, R122): the flash command that a state
offers respects it. -/

namespace Sys2Proof.Machine

/-! ### Word addresses and ranges (R118, R119, R121, R124) -/

theorem firstWord_toNat (lin : Word) : (firstWord lin).toNat = lin.toNat / 2 := by
  simp [firstWord, Nat.shiftRight_eq_div_pow]

/-- The last word of a record has 32 bits (R119). -/
theorem lastWord_toNat (lin : Word) (rc : Byte) : (lastWord lin rc).toNat = (lin.toNat + rc.toNat - 1) / 2 := by
  have hlin := lin.isLt
  have hrc := rc.isLt
  rw [lastWord, BitVec.toNat_ofNat, Nat.mod_eq_of_lt (by omega)]

theorem overlapsLoader_eq_false_iff {c : Config} {w wl : Word} :
    overlapsLoader c w wl = false ↔ c.lrEnd.toNat < w.toNat ∨ wl.toNat < c.lrStart.toNat := by
  simp only [overlapsLoader, Bool.and_eq_false_iff, decide_eq_false_iff_not, Nat.not_le]

theorem meetsUnit_eq_false_iff {u w wl : Word} {e : Nat} (he : 0 < e) :
    meetsUnit u e w wl = false ↔ u.toNat + e ≤ w.toNat ∨ wl.toNat < u.toNat := by
  simp only [meetsUnit, Bool.and_eq_false_iff, decide_eq_false_iff_not, Nat.not_le]
  omega

/-! ### The latched DATA record -/

section
variable {s : State}

/-- The record has a first and a last word, and its bytes, written from the first word on, end within the last. -/
theorem State.dataLatched.words (h : s.dataLatched) :
    s.w.toNat ≤ s.wl.toNat ∧ 2 * s.w.toNat + s.latch.rc.toNat ≤ 2 * s.wl.toNat + 2 := by
  obtain ⟨-, -, hrc, -, hw, hwl, -⟩ := h
  have hpos : 0 < s.latch.rc.toNat := Nat.pos_of_ne_zero fun h0 => hrc (BitVec.eq_of_toNat_eq h0)
  rw [hw, hwl, firstWord_toNat, lastWord_toNat]
  omega

/-- R121: the record's words are above the loader region or below it. -/
theorem State.dataLatched.outside (h : s.dataLatched) :
    s.cfg.lrEnd.toNat < s.w.toNat ∨ s.wl.toNat < s.cfg.lrStart.toNat := by
  obtain ⟨-, -, -, -, -, -, ho, -⟩ := h
  exact overlapsLoader_eq_false_iff.1 ho

namespace Inv

theorem eraseWords_pos (hi : Inv s) : 0 < s.cfg.eraseWords.toNat := by
  obtain ⟨h1, h2, -⟩ := (configLegal_iff s.cfg).1 hi.legal
  exact h1.trans h2

theorem sharedUnit_mod (hi : Inv s) {u : Word} (hu : s.cfg.sharedUnit = some u) :
    u.toNat % s.cfg.eraseWords.toNat = 0 := by
  obtain ⟨-, -, -, -, h, -⟩ := (configLegal_iff s.cfg).1 hi.legal
  exact h u hu

theorem write (hi : Inv s) (hst : s.st = .write) : s.dataLatched := by
  have h := hi.stage
  rw [State.stageOk, hst] at h
  obtain ⟨-, -, hd⟩ := h
  exact hd

/-- A normal erase starts at a unit's first word, and the record does not meet the shared unit (R124, R125). -/
theorem erase_normal (hi : Inv s) (hst : s.st = .erase) (hp : s.path = .normal) :
    s.w.toNat % s.cfg.eraseWords.toNat = 0 ∧
      ∀ u, s.cfg.sharedUnit = some u → meetsUnit u s.cfg.eraseWords.toNat s.w s.wl = false := by
  have h := hi.stage
  rw [State.stageOk, hst] at h
  obtain ⟨-, ⟨-, -, -, -, -, -, -, hn, -⟩, hg, -, hm⟩ := h
  exact ⟨hm hp, (hn hp).resolve_left hg⟩

/-! ### Commands (R122) -/

/-- The shared unit at its default is the one that the region's first word cuts, so a record below the region and not in
that unit is below its base: the unit that a normal erase blanks ends before the region. -/
theorem erase_normal_outside (hi : Inv s) (hu : s.cfg.sharedUnit = defaultSharedUnit s.cfg.eraseWords s.cfg.lrStart)
    (hst : s.st = .erase) (hp : s.path = .normal) :
    s.cfg.lrEnd.toNat < s.w.toNat ∨ s.w.toNat + s.cfg.eraseWords.toNat ≤ s.cfg.lrStart.toNat := by
  obtain ⟨hbase, hmeets⟩ := hi.erase_normal hst hp
  obtain ⟨hd, -⟩ := hi.erase hst
  obtain ⟨hle, -⟩ := hd.words
  refine hd.outside.imp_right fun hbelow => ?_
  have hpos := hi.eraseWords_pos
  obtain ⟨-, hcut⟩ := defaultSharedUnitHoldsTheFirstWord s.cfg.eraseWords s.cfg.lrStart
    fun h0 => by simp [h0] at hpos
  by_cases hm : s.cfg.lrStart.toNat % s.cfg.eraseWords.toNat = 0
  · exact Nat.ModEq.add_le_of_lt (hbase.trans hm.symm) (by omega)
  · obtain ⟨u, hdef, -, hubase, hlt, hend⟩ := hcut hm
    rcases (meetsUnit_eq_false_iff hpos).1 (hmeets u (hu.trans hdef)) with habove | hunder
    · omega
    · have hunit : s.w.toNat + s.cfg.eraseWords.toNat ≤ u.toNat :=
        Nat.ModEq.add_le_of_lt (hbase.trans hubase.symm) (by omega)
      omega

theorem write_outside (hi : Inv s) (hst : s.st = .write) :
    s.cfg.lrEnd.toNat < s.w.toNat ∨ 2 * s.w.toNat + s.latch.rc.toNat ≤ 2 * s.cfg.lrStart.toNat := by
  obtain ⟨-, hend⟩ := (hi.write hst).words
  exact (hi.write hst).outside.imp_right fun hbelow => by omega

/-- Every command on offer is a normal erase, a normal write, or on the shared unit. -/
theorem flashSafe_of_flRequest (hi : Inv s)
    (hu : s.cfg.sharedUnit = defaultSharedUnit s.cfg.eraseWords s.cfg.lrStart) {e : Event}
    (h : s.flRequest = some e) : flashSafe s.cfg e := by
  unfold State.flRequest at h
  split at h
  · rename_i hst hp
    cases h
    exact ⟨(hi.erase_normal hst hp).1, .inr (hi.erase_normal_outside hu hst hp)⟩
  · rename_i u _ _ hunit
    split at h
    · cases h; exact hunit
    · split at h <;> cases h
      exact ⟨hi.sharedUnit_mod hunit, .inl hunit⟩
  · rename_i hst _
    cases h
    exact .inr (hi.write_outside hst)
  · rename_i u _ _ hunit
    cases h
    exact .inl hunit
  · cases h

end Inv

end

/-- Settles O37: a step's event is a command on offer, or none of the flash. -/
theorem flashCommandsRespectTheLoader : Obligations.FlashCommandsRespectTheLoader := by
  intro s t e hi hu h htrace
  obtain ⟨hl, ⟨-, rfl⟩ | ⟨hr, -⟩⟩ := step_next h
  · cases s.takeReset_trace.symm.trans htrace; trivial
  cases (step_move ⟨hl, hr⟩ h).portUse with
  | idle trace rx flash noRx noTx noFl => simp [trace] at htrace
  | receive b rest ready held rx trace => cases trace.symm.trans htrace; trivial
  | send b offered ready rx trace => cases trace.symm.trans htrace; trivial
  | command f requested done rx trace =>
    cases trace.symm.trans htrace
    exact hi.flashSafe_of_flRequest hu requested
  | rstreq st noTx rx trace => cases trace.symm.trans htrace; trivial

end Sys2Proof.Machine

/-! PROOFS. The order between bytes and flash commands (20_memory.md R56, 40_line_receive.md R85): what the gate is in
each stage, and that every move keeps it. -/

namespace Sys2Proof.Machine

section
variable {s t : State}

/-! ### The gate of a stage -/

/-- Open while lines are received, closed while a unit is dealt with. RESETTING opens it on its way and only RST leaves
it, and the unused value is never reached, so the invariant asks nothing of them. -/
def St.gate : St → Option Bool
  | .await => some true
  | .validate | .dispatch | .erase | .write | .acknowledge => some false
  | .resetting | .unused => none

theorem gateInv_iff : GateInv s ↔ gated s.trace = true ∧ ∀ x, s.st.gate = some x → gateOpen s.trace = x := by
  constructor
  · rintro ⟨hg, ho, hc⟩
    refine ⟨hg, fun x hx => ?_⟩
    cases hst : s.st with
    | await => rw [hst] at hx; cases hx; exact ho hst
    | resetting | unused => rw [hst] at hx; cases hx
    | _ => rw [hst] at hx; cases hx; exact hc (by simp [hst])
  · rintro ⟨hg, h⟩
    refine ⟨hg, fun hst => h true (by rw [hst]; rfl), fun hst => h false ?_⟩
    rcases hst with hst | hst | hst | hst | hst <;> rw [hst] <;> rfl

/-! ### The gate after an event -/

/-- Of the bytes sent, only XOFF and XON move the gate. -/
theorem gateOpen_ack (l : List Event) : gateOpen (.tx Byte.ack :: l) = gateOpen l := by
  rw [gateOpen, if_neg (by decide), if_neg (by decide)]

/-- A flash command leaves the gate as it is, and is allowed while it is closed. -/
theorem gate_flCommand {e : Event} (he : e ∈ flCommands [e]) (l : List Event) :
    gateOpen (e :: l) = gateOpen l ∧ gateAllows l e = !gateOpen l := by
  cases e with
  | flErase wa => exact ⟨rfl, rfl⟩
  | flWrite wa data n => exact ⟨rfl, rfl⟩
  | flRead wa n => exact ⟨rfl, rfl⟩
  | _ => simp [flCommands] at he

namespace GateInv

theorem gate_eq (hg : GateInv s) {x : Bool} (h : s.st.gate = some x) : gateOpen s.trace = x :=
  (gateInv_iff.1 hg).2 x h

/-! ### Computations and transactions -/

/-- A computation within the stages of one gate, or into a stage that has none. -/
theorem internal (hg : GateInv s) (htrace : t.trace = s.trace) (hgate : t.st.gate = s.st.gate ∨ t.st.gate = none) :
    GateInv t := by
  refine gateInv_iff.2 ⟨htrace ▸ hg.gated, fun x hx => ?_⟩
  rcases hgate with h | h <;> rw [h] at hx
  · rw [htrace]; exact hg.gate_eq hx
  · cases hx

/-- An allowed transaction, into a stage whose gate is the one after it or that has none. -/
theorem event (hg : GateInv s) {e : Event} (htrace : t.trace = e :: s.trace) (hallow : gateAllows s.trace e = true)
    (hgate : t.st.gate = some (gateOpen (e :: s.trace)) ∨ t.st.gate = none) : GateInv t := by
  refine gateInv_iff.2 ⟨?_, fun x hx => ?_⟩
  · rw [htrace, Machine.gated, hallow, hg.gated]; rfl
  · rcases hgate with h | h <;> rw [h] at hx
    · rw [htrace]; exact Option.some.inj hx
    · cases hx

/-- A flash command, from a stage with the gate closed into another (20_memory.md R56). -/
theorem command (hg : GateInv s) {e : Event} (hs : s.st.gate = some false) (ht : t.st.gate = some false)
    (htrace : t.trace = e :: s.trace) (he : e ∈ flCommands [e]) : GateInv t := by
  obtain ⟨hopen, hallow⟩ := gate_flCommand he s.trace
  have hclosed : gateOpen s.trace = false := hg.gate_eq hs
  exact hg.event htrace (by rw [hallow, hclosed]; rfl) (.inl (by rw [hopen, hclosed, ht]))

/-- RST opens the gate, whatever it was (70_reset_and_hazards.md R163). -/
theorem takeReset (hg : GateInv s) : GateInv s.takeReset := hg.event (e := .rst) rfl rfl (.inl rfl)

end GateInv

/-! ### A step -/

/-- Every move of a running block keeps the gate. -/
theorem Move.gateInv (m : Move s t) (hg : GateInv s) : GateInv t := by
  cases m with
  | wait same why => rwa [same]
  | receive b rest st ph rx eq =>
    obtain ⟨_, _, _, _, _, _, e⟩ := receive_shape s b rest
    have hopen : gateOpen (.rx b :: s.trace) = true := hg.opened st
    rw [eq, e]
    exact hg.event rfl hopen (.inl (by rw [hopen, st]; rfl))
  | xoff st ph ready eq => rw [eq]; exact hg.event rfl rfl (.inl rfl)
  | mismatch st pair eq => rw [eq]; exact hg.internal rfl (.inl (by rw [st]; rfl))
  | nonrecord c cs st pair line ne eq => rw [eq]; exact hg.internal rfl (.inl (by rw [st]; rfl))
  | rejected e st pair colon parsed eq => rw [eq]; exact hg.internal rfl (.inl (by rw [st]; rfl))
  | accepted r st pair colon parsed eq => rw [eq]; exact hg.internal rfl (.inl (by rw [st]; rfl))
  | data st rt eq =>
    obtain ⟨x, _, _, _, _, hx, e⟩ := execData_shape eq
    rw [e]
    exact hg.internal rfl (.inl (by rcases hx with rfl | rfl | rfl <;> rw [st] <;> rfl))
  | eof st rt eq => rw [eq]; exact hg.internal rfl (.inr rfl)
  | extaddr hi lo st rt rd eq => rw [eq]; exact hg.internal rfl (.inl (by rw [st]; rfl))
  | ignored st ne0 ne1 ne4 eq => rw [eq]; exact hg.internal rfl (.inl (by rw [st]; rfl))
  | erase st path done eq =>
    rw [eq]; exact hg.command (by rw [st]; rfl) rfl (s.flashErase_trace _) (by simp [flCommands])
  | rmwRead u st path unit ph done eq =>
    have hclosed : s.st.gate = some false := by rw [st]; rfl
    rw [eq]; exact hg.command hclosed hclosed rfl (by simp [flCommands])
  | rmwMerge u st path unit ph eq => rw [eq]; exact hg.internal rfl (.inl rfl)
  | rmwErase u st path unit ph0 ph1 done eq =>
    rw [eq]; exact hg.command (by rw [st]; rfl) rfl (s.flashErase_trace _) (by simp [flCommands])
  | write st path done eq =>
    rw [eq]; exact hg.command (by rw [st]; rfl) rfl (s.flashWrite_trace _ _ _) (by simp [flCommands])
  | rmwWrite u st path unit done eq =>
    rw [eq]; exact hg.command (by rw [st]; rfl) rfl (s.flashWrite_trace _ _ _) (by simp [flCommands])
  | ack st ready ph ok eq =>
    have hclosed : s.st.gate = some false := by rw [st]; rfl
    rw [eq]; exact hg.event rfl rfl (.inl (by rw [gateOpen_ack, hg.gate_eq hclosed]; exact hclosed))
  | xon st ready last eq => rw [eq]; exact hg.event rfl rfl (.inl rfl)
  | resetSend b st op ready eq =>
    have hnone : s.st.gate = none := by rw [st]; rfl
    rw [eq]; exact hg.event rfl rfl (.inr hnone)
  | deviceReset st op eq =>
    have hnone : s.st.gate = none := by rw [st]; rfl
    rw [eq]; exact hg.event rfl rfl (.inr hnone)

end

/-- Settles O56: RST opens the gate, and every move keeps to it. -/
theorem stepKeepsTheGate : Obligations.StepKeepsTheGate := by
  intro s t _ hg h
  obtain ⟨hl, ⟨-, rfl⟩ | ⟨hr, -⟩⟩ := step_next h
  · exact hg.takeReset
  · exact (step_move ⟨hl, hr⟩ h).gateInv hg

end Sys2Proof.Machine

/-! PROOFS. The encoding (30_encoding.md R65, R66, R76-R78): hex digits and pairs, the rows of the opcode table, and the
decoder on what the encoder writes. An operation comes back because a byte that lies in its row lies in no other: two
rows that admit one byte agree on the bits that both fix. -/

namespace Sys2Proof

/-! ### Hex characters (R65, R66) -/

/-- Settles O1: the two ranges of R65 exclude each other, and neither difference exceeds four bits. -/
theorem hexDigitValues : Obligations.HexDigitValues := by
  intro c v
  unfold hexval
  split
  · simp only [Option.some.injEq]; bv_omega
  · split
    · simp only [Option.some.injEq]; bv_omega
    · simp only [reduceCtorEq, false_iff]; bv_omega

/-- Settles O2: `hexbyte` puts the value of the first digit above that of the second. -/
theorem hexPairHighNibbleFirst : Obligations.HexPairHighNibbleFirst := by
  intro cHi cLo b
  rw [hexbyte_eq_some]
  refine exists_congr fun h => exists_congr fun l => and_congr_right fun _ => and_congr_right fun _ => ?_
  rw [← BitVec.toNat_inj, nibbles_toNat, eq_comm]

/-! ### The rows of the opcode table (R77) -/

/-- Settles O3: for each of the 256 bytes, one row of either format admits it. -/
theorem tableRowsPartitionTheBytes : Obligations.TableRowsPartitionTheBytes := by
  constructor <;> decide

section
variable {c m p m' p' : Byte}

/-- A byte of the row `p`, `m` is in no row that fixes some bit of `m` otherwise. -/
theorem not_admits_of_admits (h : c &&& m = p) (hne : p &&& m' ≠ p' &&& m) : (c &&& m' = p') = False := by
  refine eq_false fun h' => hne ?_
  rw [← h, ← h', BitVec.and_assoc, BitVec.and_assoc, BitVec.and_comm m]

/-- A byte of the row `p`, `m` is no byte outside the row. -/
theorem ne_of_admits (h : c &&& m = p) (hne : p' &&& m ≠ p) : (c = p') = False :=
  eq_false fun h' => hne (h' ▸ h)

end

/-! ### The decoder on encoded operations (R76, R78) -/

/-- The operation of a line's first byte is the well-formed one that carries the byte (R64). -/
theorem ofFirstByte_selector {i : Instr} (hf : i.format = .lineC0) (hwf : i.wf = true) (hn : ∀ body, i ≠ .record body)
    (l : List Byte) : ofFirstByte i.selector l = i := by
  cases i
  case record body => exact absurd rfl (hn body)
  case nonrecord3B => rfl
  case nonrecord00to1F | nonrecord20to2F | nonrecord30to37 | nonrecord38to39 | nonrecord3Cto3F | nonrecord40to7F
      | nonrecord80toFF =>
    have h := beq_iff_eq.1 hwf
    simp [ofFirstByte, Instr.selector, h, not_admits_of_admits h, ne_of_admits h]
  all_goals cases hf

theorem decode_nonrecordLine (c : Byte) :
    decode .lineC0 (nonrecordLine c) = .ok (ofFirstByte c (nonrecordLine c)) := by
  by_cases h : c = Byte.cr <;> simp [nonrecordLine, decode, h]

/-- The line of a well-formed record decodes to the operation of the record: the encoder computes the checksum that the
record has (R76, R102). -/
theorem decode_enc {r : Record} (h : r.wf = true) : decode .recordTT (enc r.rc r.ra r.rt r.rd) = ofRecord r := by
  have hck : r.cs = checksumOf r.body := by
    rw [← checksumOk_iff]
    simp only [Record.wf, Bool.and_eq_true] at h
    exact h.1.2
  have hline : enc r.rc r.ra r.rt r.rd = Byte.colon :: (hexText (r.body ++ [r.cs]) ++ [Byte.cr]) := by
    rw [hexText_append, hck]; rfl
  have hparse : parse (Byte.colon :: hexText (r.body ++ [r.cs])) = .ok r := (parse_ok_iff _ _ _).2 ⟨h, rfl⟩
  rw [hline, decode, if_pos rfl, content_cons_append_cr, hparse]

/-- Settles O5: each line is the encoder's for the operation, and the selecting byte picks the operation's own row. -/
theorem decodeOfEncodeIsInstruction : Obligations.DecodeOfEncodeIsInstruction := by
  intro i hwf
  cases i
  case record body =>
    change decode .lineC0 (Byte.colon :: (body ++ [Byte.cr])) = _
    rw [decode, ofFirstByte_colon, content_cons_append_cr, List.drop_one, List.tail_cons]
  case data | eof | extaddr | ignored02 | ignored03 | ignored05 => exact (decode_enc hwf).trans rfl
  case ignored06to07 rt f | ignored08to0F rt f | ignored10to1F rt f | ignored20to3F rt f | ignored40to7F rt f
      | ignored80toFF rt f =>
    obtain ⟨hrow, hrec⟩ := Bool.and_eq_true_iff.1 hwf
    have h := beq_iff_eq.1 hrow
    refine (decode_enc hrec).trans ?_
    simp [ofRecord, Fields.record, Record.fields, h, not_admits_of_admits h, ne_of_admits h]
  all_goals
    exact (decode_nonrecordLine _).trans (congrArg Except.ok (ofFirstByte_selector rfl hwf nofun _))

/-! ### Lines of the spec (42_record_dispatch.md R108-R113) -/

/-- Settles O7: the decoder is evaluated on each line. -/
theorem exampleLinesDecode : Obligations.ExampleLinesDecode := by
  refine ⟨?_, ?_, ?_, ?_, ?_, ?_, ?_, ?_, ?_⟩ <;> decide

end Sys2Proof

/-! PROOFS. The faults of the model (log entry 12): what each action faults on, with the inversion lemmas for a fault
beside those for a next state and for a refusal, and that the invariant excludes every one of them. -/

namespace Sys2Proof.Machine

section
variable {s : State} {r : Fault}

/-! ### Transactions and meanings -/

theorem State.send_ne_fault {b : Byte} {k : State → State} : s.send b k ≠ .fault r := by
  unfold State.send; split <;> simp

theorem State.command_ne_fault {k : State → State} : s.command k ≠ .fault r := by
  unfold State.command; split <;> simp

theorem State.chooseWrite_ne_fault : s.chooseWrite ≠ .fault r := by
  unfold State.chooseWrite
  split
  · simp
  · split
    · simp
    · split
      · split <;> simp
      · simp

theorem execData_ne_fault {f : Fields} : execData f s ≠ .fault r := by
  unfold execData
  split
  · simp
  · simp only
    split
    · simp
    · exact State.chooseWrite_ne_fault

/-- No operation faults (60_exceptions.md R135). -/
theorem exec_ne_fault {i : Instr} : exec i s ≠ .fault r := by
  cases i
  case data f => exact execData_ne_fault
  case record body =>
    simp only [exec, execRecord]
    split <;> simp
  all_goals exact nofun

/-! ### The actions of the states -/

theorem stepAwait_ne_fault : stepAwait s ≠ .fault r := by
  unfold stepAwait
  split
  · split <;> simp
  · exact State.send_ne_fault

/-- VALIDATE faults on an empty line (30_encoding.md R64). -/
theorem stepValidate_fault (h : stepValidate s = .fault r) : s.line0 = [] := by
  unfold stepValidate at h
  split at h
  · cases h
  · split at h
    · exact absurd h exec_ne_fault
    · rename_i e he
      cases hl : s.line0 with
      | nil => rfl
      | cons c cs => rw [fetchLine, hl] at he; cases he

/-- A record selects no operation only if it is of type 0x04 without two payload bytes (41_record_validate.md R103). -/
theorem ofRecord_error {x : Record} {e : DecodeError} (h : ofRecord x = .error e) :
    x.rt = 0x04#8 ∧ ¬∃ hi lo, x.rc = 2#8 ∧ x.rd = [hi, lo] := by
  by_cases h4 : x.rt = 0x04#8
  · refine ⟨h4, ?_⟩
    rintro ⟨hi, lo, hrc, hrd⟩
    simp [ofRecord, h4, hrc, hrd] at h
  · unfold ofRecord at h
    rw [if_neg h4] at h
    repeat' split at h
    all_goals cases h

/-- DISPATCH faults on a latch that selects no operation (42_record_dispatch.md R107). -/
theorem stepDispatch_fault (h : stepDispatch s = .fault r) : ∃ e, ofRecord s.latch = .error e := by
  unfold stepDispatch at h
  split at h
  · exact absurd h exec_ne_fault
  · exact ⟨_, ‹_›⟩

/-- ERASE faults on the read-modify-write path without a shared unit (43_flash_reconcile.md R124). -/
theorem stepErase_fault (h : stepErase s = .fault r) : s.path = .rmw ∧ s.cfg.sharedUnit = none := by
  unfold stepErase at h
  split at h
  · exact absurd h State.command_ne_fault
  · unfold eraseRmw at h
    split at h
    · exact absurd h State.command_ne_fault
    · split at h
      · cases h
      · exact absurd h State.command_ne_fault
  · exact ⟨‹_›, ‹_›⟩

/-- WRITE faults as ERASE does (R124). -/
theorem stepWrite_fault (h : stepWrite s = .fault r) : s.path = .rmw ∧ s.cfg.sharedUnit = none := by
  unfold stepWrite at h
  split at h
  · exact absurd h State.command_ne_fault
  · exact absurd h State.command_ne_fault
  · exact ⟨‹_›, ‹_›⟩

theorem stepAcknowledge_ne_fault : stepAcknowledge s ≠ .fault r := by
  unfold stepAcknowledge; split <;> exact State.send_ne_fault

theorem stepResetting_ne_fault : stepResetting s ≠ .fault r := by
  unfold stepResetting
  split
  · exact State.send_ne_fault
  · simp
  · simp

/-! ### The invariant excludes them -/

namespace Inv

theorem line0_ne_nil (hi : Inv s) (hst : s.st ≠ .await) : s.line0 ≠ [] := (hi.unitReceived hst).1.1

/-- The latched record was accepted by validation, so it selects an operation (41_record_validate.md R103, R104). -/
theorem ofRecord_latch_ne_error (hi : Inv s) (hst : s.st = .dispatch) {e : DecodeError} :
    ofRecord s.latch ≠ .error e := by
  intro h
  obtain ⟨-, hcolon, hparse, -⟩ := hi.dispatch hst
  obtain ⟨body, hbody⟩ := content_of_colon _ hcolon
  rw [hbody] at hparse
  obtain ⟨h4, hlen⟩ := ofRecord_error h
  exact hlen (parse_ok_extaddr hparse h4)

end Inv

/-- A record on the read-modify-write path lies in a shared unit that is configured (43_flash_reconcile.md R124). -/
theorem State.dataLatched.sharedUnit_ne_none (h : s.dataLatched) (hp : s.path = .rmw) : s.cfg.sharedUnit ≠ none := by
  obtain ⟨-, -, -, -, -, -, -, -, hrmw⟩ := h
  obtain ⟨-, u, hu, -⟩ := hrmw hp
  simp [hu]

theorem Inv.stepState_ne_fault (hi : Inv s) : stepState s ≠ .fault r := by
  intro h
  unfold stepState at h
  split at h <;> rename_i hst
  · exact stepAwait_ne_fault h
  · exact hi.line0_ne_nil (by simp [hst]) (stepValidate_fault h)
  · obtain ⟨e, he⟩ := stepDispatch_fault h
    exact hi.ofRecord_latch_ne_error hst he
  · obtain ⟨hp, hu⟩ := stepErase_fault h
    exact (hi.erase hst).1.sharedUnit_ne_none hp hu
  · obtain ⟨hp, hu⟩ := stepWrite_fault h
    exact (hi.write hst).sharedUnit_ne_none hp hu
  · exact stepAcknowledge_ne_fault h
  · exact stepResetting_ne_fault h
  · have hs := hi.stage
    rw [State.stageOk, hst] at hs
    exact hs

theorem Inv.step_ne_fault (hi : Inv s) : step s ≠ .fault r := by
  unfold step stepBlock
  split
  · simp
  · split
    · simp
    · exact hi.stepState_ne_fault

end

/-- Settles O57: the invariant excludes the faults and an illegal configuration; the action of a state refuses the
straddle only. -/
theorem invariantStatesNeverFault : Obligations.InvariantStatesNeverFault := by
  intro s hi
  cases h : step s with
  | next t => exact .inl ⟨t, rfl⟩
  | fault r => exact absurd h hi.step_ne_fault
  | refused r =>
    rcases step_refused h with ⟨hc, -⟩ | ⟨-, h⟩
    · rw [hi.legal] at hc; cases hc
    · obtain ⟨hst, hrt, rfl⟩ := stepState_refused h
      exact .inr ⟨rfl, hst, hrt⟩

end Sys2Proof.Machine

/-! PROOFS. Whole units of transfer (30_encoding.md R63, 40_line_receive.md R80-R84): a run that takes the bytes of a line
from RX stores them in the selected buffer in order, whichever of the two it is; the line's last byte begins the pair's
second line or makes XOFF due. -/

namespace Sys2Proof.Machine

section
variable {s : State} {b : Byte} {l rest : List Byte}

/-! ### Storing a run of bytes (R80) -/

/-- The bytes `l` taken from RX, one after the other, into the selected buffer from its first free place on; `rest` is
left at RX. `storeBytes_cons` and `storeBytes_singleton` make it a run of `storeByte`. -/
def State.storeBytes (s : State) (l rest : List Byte) : State :=
  if s.sel then
    { s with buf1 := mergeAt s.buf1 s.len1 l, len1 := s.len1 + l.length, rx := rest,
             trace := (l.map Event.rx).reverse ++ s.trace }
  else
    { s with buf0 := mergeAt s.buf0 s.len0 l, len0 := s.len0 + l.length, rx := rest,
             trace := (l.map Event.rx).reverse ++ s.trace }

theorem State.storeBytes_singleton : s.storeBytes [b] rest = s.storeByte b rest := by
  unfold storeBytes storeByte
  split <;> rfl

theorem State.storeBytes_cons : s.storeBytes (b :: l) rest = (s.storeByte b (l ++ rest)).storeBytes l rest := by
  cases hs : s.sel <;> simp [storeBytes, storeByte, hs, mergeAt, Nat.add_assoc, Nat.add_comm 1]

@[simp] theorem State.storeBytes_cfg : (s.storeBytes l rest).cfg = s.cfg := by unfold storeBytes; split <;> rfl

@[simp] theorem State.storeBytes_txReady : (s.storeBytes l rest).txReady = s.txReady := by
  unfold storeBytes; split <;> rfl

@[simp] theorem State.storeBytes_sel : (s.storeBytes l rest).sel = s.sel := by unfold storeBytes; split <;> rfl

theorem State.storeBytes_of_sel_false (hs : s.sel = false) :
    s.storeBytes l rest =
      { s with buf0 := mergeAt s.buf0 s.len0 l, len0 := s.len0 + l.length, rx := rest,
               trace := (l.map Event.rx).reverse ++ s.trace } :=
  if_neg (by simp [hs])

theorem State.storeBytes_of_sel_true (hs : s.sel = true) :
    s.storeBytes l rest =
      { s with buf1 := mergeAt s.buf1 s.len1 l, len1 := s.len1 + l.length, rx := rest,
               trace := (l.map Event.rx).reverse ++ s.trace } :=
  if_pos hs

/-- A line stored from the start of a buffer is what the buffer holds there. -/
theorem take_mergeAt {buf : List Byte} (h : l.length ≤ buf.length) : (mergeAt buf 0 l).take l.length = l := by
  refine List.ext_getElem (by simpa using h) fun i hi hl => ?_
  have hm : i < (mergeAt buf 0 l).length := by simp; omega
  have hg := mergeAt_getD 0#8 l buf 0 i (by omega)
  rw [if_pos ⟨Nat.zero_le _, by omega⟩, Nat.sub_zero, List.getD_eq_getElem _ _ hm, List.getD_eq_getElem _ _ hl] at hg
  rw [List.getElem_take, hg]

/-! ### A byte in AWAIT (R80, R81) -/

/-- The next step takes a byte from RX if there is one (10_state.md R39). -/
def State.receiving (s : State) : Prop := s.running ∧ s.st = .await ∧ s.ph = 0

theorem step_of_receiving (h : s.receiving) (hrx : s.rx = b :: rest) :
    step s = .next ((s.storeByte b rest).afterByte b) := by
  obtain ⟨⟨hl, hr⟩, hst, hp⟩ := h
  simp [step_of_running hl hr, stepState, hst, stepAwait, hp, hrx]

theorem State.storeByte_receiving (h : s.receiving) : (s.storeByte b rest).receiving := by
  unfold storeByte; split <;> exact h

theorem State.storeBytes_receiving (h : s.receiving) : (s.storeBytes l rest).receiving := by
  unfold storeBytes; split <;> exact h

@[simp] theorem State.storeByte_cfg : (s.storeByte b rest).cfg = s.cfg := by unfold storeByte; split <;> rfl

@[simp] theorem State.storeByte_rx : (s.storeByte b rest).rx = rest := by unfold storeByte; split <;> rfl

@[simp] theorem State.storeByte_lenSel : (s.storeByte b rest).lenSel = s.lenSel + 1 := by
  cases hs : s.sel <;> simp [storeByte, lenSel, hs]

theorem State.afterByte_of_not_complete (h : lineComplete s.cfg s.lenSel b = false) : s.afterByte b = s := by
  simp [afterByte, h]

/-- R83, R84: the last line of the unit is complete, so XOFF is due. -/
theorem State.afterByte_of_last_line (h : lineComplete s.cfg s.lenSel b = true)
    (hs : s.cfg.redundant = true → s.sel = true) : s.afterByte b = s.nextPhase := by
  have hlast : (s.cfg.redundant && !s.sel) = false := by simpa using hs
  simp [afterByte, h, hlast]

/-- R84: the first line of a pair is complete, so the second one begins. -/
theorem State.afterByte_of_first_line (h : lineComplete s.cfg s.lenSel b = true) (hr : s.cfg.redundant = true)
    (hs : s.sel = false) : s.afterByte b = { s with sel := true } := by
  simp [afterByte, h, hr, hs]

/-! ### A line in AWAIT (R81) -/

/-- What is still to come of a line that the selected buffer holds in part is received whole, and its last byte is the
one that completes the line. -/
theorem runSteps_storeBytes (h : s.receiving) (hrx : s.rx = l ++ rest) (hne : l ≠ []) (hcr : Byte.cr ∉ l.dropLast)
    (hend : l.getLast? = some Byte.cr ∨ s.lenSel + l.length = s.cfg.lineCap)
    (hcap : s.lenSel + l.length ≤ s.cfg.lineCap) :
    ∃ b, runSteps l.length s = .next ((s.storeBytes l rest).afterByte b) ∧
      lineComplete s.cfg (s.storeBytes l rest).lenSel b = true := by
  induction l generalizing s with
  | nil => exact absurd rfl hne
  | cons b l ih =>
    have hstep := step_of_receiving h hrx
    cases l with
    | nil =>
      refine ⟨b, ?_, ?_⟩
      · rw [State.storeBytes_singleton]; exact runSteps_succ 0 hstep
      · rw [State.storeBytes_singleton, State.storeByte_lenSel]
        simpa [lineComplete] using hend
    | cons c l =>
      rw [List.dropLast_cons_cons, List.mem_cons, not_or] at hcr
      obtain ⟨hb, hcr⟩ := hcr
      rw [List.getLast?_cons_cons] at hend
      rw [List.length_cons] at hend hcap ⊢
      have hopen : lineComplete s.cfg (s.lenSel + 1) b = false := by
        rw [List.length_cons] at hcap
        simp only [lineComplete, Bool.or_eq_false_iff, beq_eq_false_iff_ne]
        exact ⟨Ne.symm hb, by omega⟩
      rw [State.afterByte_of_not_complete (by simpa using hopen)] at hstep
      rw [runSteps_succ _ hstep, State.storeBytes_cons]
      have hnext := ih (State.storeByte_receiving (b := b) (rest := c :: l ++ rest) h)
      simp only [State.storeByte_lenSel, State.storeByte_cfg] at hnext
      exact hnext State.storeByte_rx nofun hcr (hend.imp_right fun e => by omega) (by omega)

/-- R81: a whole line, received into an empty buffer. -/
theorem runSteps_line (h : s.receiving) (hempty : s.lenSel = 0) (hrx : s.rx = l ++ rest)
    (hl : lineWhole s.cfg.lineCap l) (hcap : l.length ≤ s.cfg.lineCap) :
    ∃ b, runSteps l.length s = .next ((s.storeBytes l rest).afterByte b) ∧
      lineComplete s.cfg (s.storeBytes l rest).lenSel b = true := by
  obtain ⟨hne, hcr, hend⟩ := hl
  exact runSteps_storeBytes h hrx hne hcr (by simpa [hempty] using hend) (by simpa [hempty] using hcap)

/-- R84: the first line of a pair, after which the second one is received. -/
theorem runSteps_first_line (h : s.receiving) (hempty : s.lenSel = 0) (hrx : s.rx = l ++ rest)
    (hl : lineWhole s.cfg.lineCap l) (hcap : l.length ≤ s.cfg.lineCap) (hr : s.cfg.redundant = true)
    (hs : s.sel = false) : runSteps l.length s = .next { s.storeBytes l rest with sel := true } := by
  obtain ⟨b, hrun, hc⟩ := runSteps_line h hempty hrx hl hcap
  rw [hrun, State.afterByte_of_first_line] <;> simp [hc, hr, hs]

theorem step_xoff (hr : s.running) (hst : s.st = .await) (hp : s.ph ≠ 0) (ht : s.txReady = true) :
    step s = .next ((s.emit (.tx Byte.xoff)).goto .validate) := by
  simp [step_of_running hr.1 hr.2, stepState, hst, stepAwait, hp, State.send, ht]

/-- R83, R84: the last line of a unit, after which XOFF is sent and VALIDATE is entered. -/
theorem runSteps_last_line (h : s.receiving) (hempty : s.lenSel = 0) (hrx : s.rx = l ++ rest)
    (hl : lineWhole s.cfg.lineCap l) (hcap : l.length ≤ s.cfg.lineCap) (hs : s.cfg.redundant = true → s.sel = true)
    (ht : s.txReady = true) :
    runSteps (l.length + 1) s = .next (((s.storeBytes l rest).emit (.tx Byte.xoff)).goto .validate) := by
  obtain ⟨b, hrun, hc⟩ := runSteps_line h hempty hrx hl hcap
  rw [State.afterByte_of_last_line (by simpa using hc) (by simpa using hs)] at hrun
  obtain ⟨hrunning, hst, hp⟩ := State.storeBytes_receiving (l := l) (rest := rest) h
  rw [runSteps_add _ 1 hrun]
  exact runSteps_succ 0 (step_xoff hrunning hst (Nat.succ_ne_zero _) (by simpa using ht))

/-- AWAIT with an empty buffer 0 waits for the first byte of a unit: no second line has begun (R84). -/
theorem Inv.unit_begins (hi : Inv s) (hst : s.st = .await) (hp : s.ph = 0) (h0 : s.len0 = 0) :
    s.sel = false ∧ s.len1 = 0 := by
  have hopen := hi.unitOpen hst hp
  cases hs : s.sel with
  | false =>
    obtain ⟨-, -, h1⟩ := (State.unitOpen_iff_of_sel_false hs).1 hopen
    exact ⟨rfl, h1⟩
  | true =>
    obtain ⟨⟨hne, -⟩, -⟩ := (State.unitOpen_iff_of_sel_true hs).1 hopen
    exact absurd (by simp [State.line0, h0]) hne

end

/-- Settles O58: in single mode the line is the unit's last; in redundant mode the first line of the pair goes to buffer 0
and the last to buffer 1, which is still empty. -/
theorem receivedLineReachesValidate : Obligations.ReceivedLineReachesValidate := by
  intro s first second rest hi hrst hst hp h0 ht hfirst hcap
  obtain ⟨hsel, h1⟩ := hi.unit_begins hst hp h0
  have hrec : s.receiving := ⟨⟨hi.legal, hrst⟩, hst, hp⟩
  have hempty : s.lenSel = 0 := by simp [State.lenSel, hsel, h0]
  have hbuf0 : (mergeAt s.buf0 s.len0 first).take (s.len0 + first.length) = first := by
    rw [h0, Nat.zero_add]; exact take_mergeAt (hi.buf0.symm ▸ hcap)
  constructor
  · intro hr hrx
    have hrun := runSteps_last_line hrec hempty hrx hfirst hcap (by simp [hr]) ht
    rw [State.storeBytes_of_sel_false hsel] at hrun
    exact ⟨_, hrun, rfl, rfl, hbuf0, rfl, rfl, rfl, rfl, rfl, rfl⟩
  · intro hr hrx hsecond hcap2
    have hbuf1 : (mergeAt s.buf1 s.len1 second).take (s.len1 + second.length) = second := by
      rw [h1, Nat.zero_add]; exact take_mergeAt (hi.buf1.symm ▸ hcap2)
    rw [List.append_assoc] at hrx
    have hrun := runSteps_first_line hrec hempty hrx hfirst hcap hr hsel
    rw [State.storeBytes_of_sel_false hsel] at hrun
    have hpair := (runSteps_add _ (second.length + 1) hrun).trans
      (runSteps_last_line hrec h1 rfl hsecond hcap2 (fun _ => rfl) ht)
    rw [State.storeBytes_of_sel_true rfl] at hpair
    exact ⟨_, hpair, rfl, rfl, hbuf0, hbuf1, rfl, by simp [Byte.xoff], rfl, rfl, rfl, rfl⟩

end Sys2Proof.Machine

/-! PROOFS. Receiving and answering, one unit of transfer after the other (40_line_receive.md R80-R91): what a step of
AWAIT, of VALIDATE and of ACKNOWLEDGE answers in each case of its rule, and from these how a rejected and how an accepted
unit is completed. -/

namespace Sys2Proof.Machine

section
variable {s : State} {b : Byte} {rest : List Byte}

/-! ### A step of AWAIT (R80-R84) -/

@[simp] theorem State.storeByte_sel : (s.storeByte b rest).sel = s.sel := by unfold storeByte; split <;> rfl

theorem lineComplete_iff {c : Config} {n : Nat} : lineComplete c n b = true ↔ b = Byte.cr ∨ n = c.lineCap := by
  simp [lineComplete]

theorem step_within_line (h : s.receiving) (hrx : s.rx = b :: rest)
    (hopen : ¬(b = Byte.cr ∨ s.lenSel + 1 = s.cfg.lineCap)) : step s = .next (s.storeByte b rest) := by
  have hc : lineComplete s.cfg (s.lenSel + 1) b = false := by rwa [← Bool.not_eq_true, lineComplete_iff]
  rw [step_of_receiving h hrx, State.afterByte_of_not_complete (by simpa using hc)]

theorem step_first_line (h : s.receiving) (hrx : s.rx = b :: rest)
    (hend : b = Byte.cr ∨ s.lenSel + 1 = s.cfg.lineCap) (hr : s.cfg.redundant = true) (hs : s.sel = false) :
    step s = .next { s.storeByte b rest with sel := true } := by
  rw [step_of_receiving h hrx, State.afterByte_of_first_line]
  · simpa using lineComplete_iff.2 hend
  · simpa using hr
  · simpa using hs

theorem step_last_line (h : s.receiving) (hrx : s.rx = b :: rest)
    (hend : b = Byte.cr ∨ s.lenSel + 1 = s.cfg.lineCap) (hs : s.cfg.redundant = true → s.sel = true) :
    step s = .next (s.storeByte b rest).nextPhase := by
  rw [step_of_receiving h hrx, State.afterByte_of_last_line]
  · simpa using lineComplete_iff.2 hend
  · simpa using hs

/-! ### A step of VALIDATE (R87, R88, 41_record_validate.md R95) -/

theorem State.pairDiffers_eq_true_iff :
    s.pairDiffers = true ↔ s.cfg.redundant = true ∧ content s.line0 ≠ content s.line1 := by
  simp [State.pairDiffers]

theorem State.pairDiffers_eq_false_iff :
    s.pairDiffers = false ↔ (s.cfg.redundant = true → content s.line0 = content s.line1) := by
  simp [State.pairDiffers]

theorem step_mismatch (hr : s.running) (hst : s.st = .validate) (hp : s.pairDiffers = true) :
    step s = .next (s.reject .pairMismatch) := by
  simp [step_of_running hr.1 hr.2, stepState, hst, stepValidate, hp]

theorem step_of_fetchLine {i : Instr} (hr : s.running) (hst : s.st = .validate) (hp : s.pairDiffers = false)
    (hi : fetchLine s = .ok i) : step s = exec i s := by
  simp [step_of_running hr.1 hr.2, stepState, hst, stepValidate, hp, hi]

/-- A line that starts with `:` is validated (30_encoding.md R64). -/
theorem fetchLine_of_colon (h : s.line0.head? = some Byte.colon) :
    ∃ body, content s.line0 = Byte.colon :: body ∧ fetchLine s = .ok (.record body) := by
  obtain ⟨body, hbody⟩ := content_of_colon _ h
  obtain ⟨cs, hcs⟩ := List.head?_eq_some_iff.1 h
  refine ⟨body, hbody, ?_⟩
  rw [fetchLine, hcs, decode, ofFirstByte_colon, ← hcs, hbody]
  rfl

theorem step_rejected {e : Reject} (hr : s.running) (hst : s.st = .validate) (hp : s.pairDiffers = false)
    (hcolon : s.line0.head? = some Byte.colon) (hparse : parse (content s.line0) = .error e) :
    step s = .next (s.reject (Verdict.ofReject e)) := by
  obtain ⟨body, hbody, hfetch⟩ := fetchLine_of_colon hcolon
  rw [hbody] at hparse
  rw [step_of_fetchLine hr hst hp hfetch, exec, execRecord, hparse]

theorem step_accepted {r : Record} (hr : s.running) (hst : s.st = .validate) (hp : s.pairDiffers = false)
    (hcolon : s.line0.head? = some Byte.colon) (hparse : parse (content s.line0) = .ok r) :
    step s = .next (s.acceptRecord r) := by
  obtain ⟨body, hbody, hfetch⟩ := fetchLine_of_colon hcolon
  rw [hbody] at hparse
  rw [step_of_fetchLine hr hst hp hfetch, exec, execRecord, hparse]

/-- The LINE_C0 operations other than RECORD have one meaning (42_record_dispatch.md R108). -/
theorem exec_nonrecord {i : Instr} (hf : i.format = .lineC0) (hn : ∀ body, i ≠ .record body) :
    exec i s = .next s.acceptNonrecord := by
  cases i
  case record body => exact absurd rfl (hn body)
  case nonrecord00to1F | nonrecord20to2F | nonrecord30to37 | nonrecord38to39 | nonrecord3B | nonrecord3Cto3F
      | nonrecord40to7F | nonrecord80toFF => rfl
  all_goals cases hf

theorem step_nonrecord (hr : s.running) (hst : s.st = .validate) (hp : s.pairDiffers = false) (hne : s.line0 ≠ [])
    (hcolon : s.line0.head? ≠ some Byte.colon) : step s = .next s.acceptNonrecord := by
  obtain ⟨c, cs, hline⟩ := List.exists_cons_of_ne_nil hne
  have hc : c ≠ Byte.colon := fun e => hcolon (by rw [hline, e]; rfl)
  obtain ⟨hf, hn⟩ := ofFirstByte_ne_colon c (c :: cs) hc
  have hfetch : fetchLine s = .ok (ofFirstByte c (c :: cs)) := by rw [fetchLine, hline]; rfl
  rw [step_of_fetchLine hr hst hp hfetch, exec_nonrecord hf hn]

/-! ### The steps of ACKNOWLEDGE (R89) -/

theorem step_ack (hr : s.running) (hst : s.st = .acknowledge) (hp : s.ph = 0) (hok : s.ackOk = true)
    (ht : s.txReady = true) : step s = .next (s.emit (.tx Byte.ack)).nextPhase := by
  simp [step_of_running hr.1 hr.2, stepState, hst, stepAcknowledge, hp, hok, State.send, ht]

/-- XON is sent where no ACK is due: it is already sent, or it is withheld. -/
theorem step_xon (hr : s.running) (hst : s.st = .acknowledge) (hlast : ¬(s.ph = 0 ∧ s.ackOk = true))
    (ht : s.txReady = true) : step s = .next ((s.emit (.tx Byte.xon)).clearLines.goto .await) := by
  rw [step_of_running hr.1 hr.2, stepState, hst]
  simp only [stepAcknowledge, if_neg hlast, State.send, if_pos ht]

theorem runSteps_ack_xon (hr : s.running) (hst : s.st = .acknowledge) (hp : s.ph = 0) (hok : s.ackOk = true)
    (ht : s.txReady = true) :
    runSteps 2 s = .next (((s.emit (.tx Byte.ack)).emit (.tx Byte.xon)).clearLines.goto .await) := by
  rw [runSteps_succ 1 (step_ack hr hst hp hok ht)]
  exact runSteps_succ 0 (step_xon hr hst (by simp) ht)

end

/-! ### One step, settled -/

/-- Settles O28: the byte is stored in the selected buffer, and what follows is decided by whether it ends the line and
whether the line is the unit's last. -/
theorem receiveStoresTheByte : Obligations.ReceiveStoresTheByte := by
  intro s b rest hr hst hp hrx
  have h : s.receiving := ⟨hr, hst, hp⟩
  constructor
  · intro hs
    have hlen : s.lenSel = s.len0 := by simp [State.lenSel, hs]
    refine ⟨fun hopen => ?_, fun hend hred => ?_, fun hend hred => ?_⟩
    · rw [step_within_line h hrx (by rw [hlen]; exact not_or.2 hopen), State.storeByte_of_sel_false hs]
    · rw [step_first_line h hrx (by rw [hlen]; exact hend) hred hs, State.storeByte_of_sel_false hs]
    · rw [step_last_line h hrx (by rw [hlen]; exact hend) (by simp [hred]), State.storeByte_of_sel_false hs,
        State.nextPhase, hp]
  · intro hs
    have hlen : s.lenSel = s.len1 := by simp [State.lenSel, hs]
    refine ⟨fun hopen => ?_, fun hend => ?_⟩
    · rw [step_within_line h hrx (by rw [hlen]; exact not_or.2 hopen), State.storeByte_of_sel_true hs]
    · rw [step_last_line h hrx (by rw [hlen]; exact hend) (fun _ => hs), State.storeByte_of_sel_true hs,
        State.nextPhase, hp]

/-- Settles O29: phase 1 of AWAIT is XOFF. -/
theorem xoffFollowsTheUnit : Obligations.XoffFollowsTheUnit :=
  fun _ hr hst hp ht => step_xoff hr hst (by simp [hp]) ht

/-- Settles O26: a pair that does not differ leaves VALIDATE to the operation of the line in buffer 0. -/
theorem stepRunsTheDecodedLine : Obligations.StepRunsTheDecodedLine :=
  fun _ _ hr hst hpair hi => step_of_fetchLine hr hst (State.pairDiffers_eq_false_iff.2 hpair) hi

/-- Settles O30: a pair that differs is rejected before its line is decoded. -/
theorem pairMismatchIsRejected : Obligations.PairMismatchIsRejected :=
  fun _ hr hst hred hne => step_mismatch hr hst (State.pairDiffers_eq_true_iff.2 ⟨hred, hne⟩)

/-- Settles O31: with `ackOk` the ACK comes first and the XON in the next phase; without it the XON comes at once. -/
theorem acknowledgeSendsAckThenXon : Obligations.AcknowledgeSendsAckThenXon :=
  fun _ hr hst hp ht =>
    ⟨fun hok => runSteps_ack_xon hr hst hp hok ht, fun hok => step_xon hr hst (by simp [hok]) ht⟩

/-! ### A rejected unit (R90, 41_record_validate.md R106) -/

/-- R90: the answer to a rejected unit. -/
theorem runSteps_of_reject {s : State} {v : Verdict} (hr : s.running) (ht : s.txReady = true)
    (h : step s = .next (s.reject v)) :
    runSteps 2 s = .next (((s.reject v).emit (.tx Byte.xon)).clearLines.goto .await) := by
  rw [runSteps_succ 1 h]
  exact runSteps_succ 0 (step_xon (s := s.reject v) hr rfl (by simp) ht)

/-- Settles O59: either kind of rejected unit is rejected in one step, and XON is the next. -/
theorem rejectedUnitGetsXonAlone : Obligations.RejectedUnitGetsXonAlone := by
  intro s hr hst ht hrej
  have hreject : ∃ v, step s = .next (s.reject v) := by
    cases hp : s.pairDiffers with
    | true => exact ⟨_, step_mismatch hr hst hp⟩
    | false =>
      rcases hrej with hpair | ⟨hcolon, e, hparse⟩
      · rw [State.pairDiffers_eq_true_iff.2 hpair] at hp; cases hp
      · exact ⟨_, step_rejected hr hst hp hcolon hparse⟩
  obtain ⟨v, hv⟩ := hreject
  exact ⟨_, runSteps_of_reject hr ht hv, rfl, rfl, rfl, rfl, rfl, rfl, rfl, rfl, rfl⟩

/-! ### An accepted unit (R91) -/

section
variable {s t : State} {n : Nat} {fl : List Event}

/-- The block completes the unit it deals with in at most `n` steps: the flash commands `fl` (newest first) and nothing
else, then ACK, then XON, and AWAIT. -/
def State.completes (s : State) (n : Nat) (fl : List Event) : Prop :=
  ∃ k t, k ≤ n ∧ runSteps k s = .next t ∧ t.st = .await ∧
    t.trace = .tx Byte.xon :: .tx Byte.ack :: (fl ++ s.trace) ∧ flCommands fl = fl.reverse

theorem flCommands_append (l l' : List Event) : flCommands (l ++ l') = flCommands l' ++ flCommands l := by
  simp [flCommands]

namespace State.completes

theorem mono {m : Nat} (h : s.completes n fl) (hnm : n ≤ m) : s.completes m fl := by
  obtain ⟨k, t, hk, hrest⟩ := h
  exact ⟨k, t, hk.trans hnm, hrest⟩

/-- One more step before, which issues the flash commands `c`. -/
theorem of_step {c : List Event} (h : t.completes n fl) (hstep : step s = .next t) (htrace : t.trace = c ++ s.trace)
    (hc : flCommands c = c.reverse) : s.completes (n + 1) (fl ++ c) := by
  obtain ⟨k, u, hk, hrun, hst, hu, hfl⟩ := h
  refine ⟨k + 1, u, Nat.succ_le_succ hk, (runSteps_succ k hstep).trans hrun, hst, ?_, ?_⟩
  · rw [hu, htrace, List.append_assoc]
  · rw [flCommands_append, hc, hfl, List.reverse_append]

/-- One more step before, an internal computation. -/
theorem of_internal (h : t.completes n fl) (hstep : step s = .next t) (htrace : t.trace = s.trace) :
    s.completes (n + 1) fl := by
  simpa using h.of_step (c := []) hstep htrace rfl

end State.completes

/-- The block runs in a state of the invariant, and both collaborators answer. -/
structure State.served (s : State) : Prop where
  inv : Inv s
  rst : s.rst = false
  txReady : s.txReady = true
  flDone : s.flDone = true

/-- No move changes an input of the block. -/
theorem Move.inputs_eq (m : Move s t) : t.rst = s.rst ∧ t.txReady = s.txReady ∧ t.flDone = s.flDone := by
  cases m with
  | wait same why => simp [same]
  | receive b rest st ph rx eq => obtain ⟨_, _, _, _, _, _, e⟩ := receive_shape s b rest; simp [eq, e]
  | data st rt eq => obtain ⟨_, _, _, _, _, _, e⟩ := execData_shape eq; simp [e]
  | _ => subst t; simp

/-- In DISPATCH a record that is not EOF is skipped or done with, or it is DATA and goes to its flash commands. -/
theorem Move.of_dispatch (m : Move s t) (hst : s.st = .dispatch) (h1 : s.latch.rt ≠ 0x01#8) :
    t.ph = 0 ∧ t.ackOk = s.ackOk ∧ t.trace = s.trace ∧
      (t.st = .acknowledge ∨ (s.latch.rt = 0x00#8 ∧ (t.st = .erase ∨ t.st = .write))) := by
  cases m with
  | wait same why =>
    rcases why with ⟨h, -⟩ | ⟨h, -⟩ | ⟨h, -⟩ | ⟨h, -⟩ <;> simp [hst, State.txData, State.flRequest] at h
  | data st rt eq =>
    obtain ⟨x, _, _, _, _, hx, e⟩ := execData_shape eq
    subst e
    exact ⟨rfl, rfl, rfl, hx.imp_right fun h => ⟨rt, h⟩⟩
  | eof st rt eq => exact absurd rt h1
  | extaddr hi lo st rt rd eq => subst t; exact ⟨rfl, rfl, rfl, .inl rfl⟩
  | ignored st ne0 ne1 ne4 eq => subst t; exact ⟨rfl, rfl, rfl, .inl rfl⟩
  | _ => simp_all

/-- What a step of ERASE or WRITE adds to the history: its flash command, or nothing (10_state.md R41). -/
theorem Move.flash_events (m : Move s t) (hst : s.st = .erase ∨ s.st = .write) :
    ∃ c, t.trace = c ++ s.trace ∧ flCommands c = c.reverse := by
  have htx : s.txData = none := by rcases hst with h | h <;> simp [State.txData, h]
  cases m.portUse with
  | idle trace rx flash noRx noTx noFl => exact ⟨[], trace, rfl⟩
  | receive b rest ready held rx trace =>
    have hawait := (State.rxReady_iff.1 ready).1
    rcases hst with h | h <;> exact absurd (hawait.symm.trans h) nofun
  | send b offered ready rx trace => simp [htx] at offered
  | command e requested done rx trace =>
    refine ⟨[e], trace, ?_⟩
    have he := (State.flRequest_cases requested).2
    exact List.filter_eq_self.2 (by simpa [flCommands] using he)
  | rstreq st noTx rx trace => rcases hst with h | h <;> exact absurd (st.symm.trans h) nofun

namespace State.served

theorem running (h : s.served) : s.running := ⟨h.inv.legal, h.rst⟩

theorem next (h : s.served) (hstep : step s = .next t) : t.served := by
  obtain ⟨hrst, htx, hfl⟩ := (step_move h.running hstep).inputs_eq
  exact ⟨stepKeepsTheInvariant s t h.inv hstep, hrst.trans h.rst, htx.trans h.txReady, hfl.trans h.flDone⟩

/-- R89. -/
theorem acknowledge (h : s.served) (hst : s.st = .acknowledge) (hp : s.ph = 0) (hok : s.ackOk = true) :
    s.completes 2 [] :=
  ⟨2, _, le_rfl, runSteps_ack_xon h.running hst hp hok h.txReady, rfl, rfl, rfl⟩

/-- ERASE and WRITE neither fault nor refuse, and issue flash commands only. -/
theorem flash_step (h : s.served) (hst : s.st = .erase ∨ s.st = .write) :
    ∃ t c, step s = .next t ∧ t.trace = c ++ s.trace ∧ flCommands c = c.reverse := by
  rcases invariantStatesNeverFault s h.inv with ⟨t, hstep⟩ | ⟨-, hd, -⟩
  · obtain ⟨c, hc⟩ := (step_move h.running hstep).flash_events hst
    exact ⟨t, c, hstep, hc⟩
  · simp [hd] at hst

/-- 43_flash_reconcile.md R128-R130: WRITE is one step, into ACKNOWLEDGE. -/
theorem write_next (h : s.served) (hst : s.st = .write) (hstep : step s = .next t) :
    t.st = .acknowledge ∧ t.ph = 0 ∧ t.ackOk = s.ackOk := by
  rw [step_of_running h.inv.legal h.rst, stepState, hst] at hstep
  rcases stepWrite_next hstep with ⟨hd, -⟩ | ⟨-, -, rfl⟩ | ⟨u, -, -, -, rfl⟩
  · rw [h.flDone] at hd; cases hd
  · simp
  · simp

theorem write (h : s.served) (hst : s.st = .write) : ∃ fl, s.completes 3 fl := by
  obtain ⟨t, c, hstep, htrace, hc⟩ := h.flash_step (.inr hst)
  obtain ⟨⟨-, -, -, -, hok⟩, -⟩ := h.inv.write hst
  obtain ⟨hst', hp, hok'⟩ := h.write_next hst hstep
  exact ⟨_, ((h.next hstep).acknowledge hst' hp (hok'.trans hok)).of_step hstep htrace hc⟩

/-- R127, R128: each step of ERASE is its last or leads to its next phase. -/
theorem erase_next (h : s.served) (hst : s.st = .erase) (hstep : step s = .next t) :
    t.st = .write ∨ (t.st = .erase ∧ t.ph = s.ph + 1 ∧ s.ph < 2) := by
  rw [step_of_running h.inv.legal h.rst, stepState, hst] at hstep
  rcases stepErase_next hstep with ⟨hd, -⟩ | ⟨-, -, rfl⟩ | ⟨u, -, -, hp, -, rfl⟩ | ⟨u, -, -, hp, rfl⟩ |
    ⟨u, -, -, -, -, -, rfl⟩
  · rw [h.flDone] at hd; cases hd
  · exact .inl rfl
  · exact .inr ⟨hst, rfl, by omega⟩
  · exact .inr ⟨hst, rfl, by omega⟩
  · exact .inl rfl

/-- ERASE with at most `n` phases after this one, and then WRITE. -/
theorem erase (h : s.served) (hst : s.st = .erase) (hn : s.ph + n = 2) : ∃ fl, s.completes (n + 4) fl := by
  induction n generalizing s with
  | zero =>
    obtain ⟨t, c, hstep, htrace, hc⟩ := h.flash_step (.inl hst)
    rcases h.erase_next hst hstep with hst' | ⟨-, -, hlt⟩
    · obtain ⟨fl, hfl⟩ := (h.next hstep).write hst'
      exact ⟨_, hfl.of_step hstep htrace hc⟩
    · omega
  | succ n ih =>
    obtain ⟨t, c, hstep, htrace, hc⟩ := h.flash_step (.inl hst)
    rcases h.erase_next hst hstep with hst' | ⟨hst', hp, -⟩
    · obtain ⟨fl, hfl⟩ := (h.next hstep).write hst'
      exact ⟨_, (hfl.mono (by omega)).of_step hstep htrace hc⟩
    · obtain ⟨fl, hfl⟩ := ih (h.next hstep) hst' (by omega)
      exact ⟨_, hfl.of_step hstep htrace hc⟩

/-- 42_record_dispatch.md R107-R113, for a record that is not EOF: only DATA issues commands, and only a straddle is
refused. -/
theorem dispatch (h : s.served) (hst : s.st = .dispatch) (h1 : s.latch.rt ≠ 0x01#8) :
    (∃ fl, s.completes 7 fl ∧ (s.latch.rt ≠ 0x00#8 → fl = [])) ∨ step s = .refused .sharedStraddle := by
  rcases invariantStatesNeverFault s h.inv with ⟨t, hstep⟩ | ⟨hrefused, -⟩
  · obtain ⟨-, -, -, -, -, hok⟩ := h.inv.dispatch hst
    obtain ⟨hp, hok', htrace, hnext⟩ := (step_move h.running hstep).of_dispatch hst h1
    have ht := h.next hstep
    refine .inl ?_
    rcases hnext with hst' | ⟨h0, hst' | hst'⟩
    · have hack := ht.acknowledge hst' hp (hok'.trans hok)
      exact ⟨[], (hack.of_internal hstep htrace).mono (by omega), fun _ => rfl⟩
    · obtain ⟨fl, hfl⟩ := ht.erase hst' (n := 2) (by omega)
      exact ⟨fl, hfl.of_internal hstep htrace, absurd h0⟩
    · obtain ⟨fl, hfl⟩ := ht.write hst'
      exact ⟨fl, (hfl.of_internal hstep htrace).mono (by omega), absurd h0⟩
  · exact .inr hrefused

end State.served

end

/-- Settles O60: one step of VALIDATE, one of DISPATCH for a record, at most three of ERASE and one of WRITE for DATA, and
two of ACKNOWLEDGE. -/
theorem acceptedUnitGetsAckThenXon : Obligations.AcceptedUnitGetsAckThenXon := by
  intro s hi hrst hst htx hfl hp hnotEof hvalid
  have h : s.served := ⟨hi, hrst, htx, hfl⟩
  by_cases hcolon : s.line0.head? = some Byte.colon
  · obtain ⟨r, hparse⟩ := hvalid hcolon
    have hstep := step_accepted h.running hst hp hcolon hparse
    rcases (h.next hstep).dispatch rfl (hnotEof r hcolon hparse) with ⟨fl, hc, hempty⟩ | hrefused
    · obtain ⟨k, t, hk, hrun, hst', htrace, hcommands⟩ := hc.of_internal hstep rfl
      exact .inl ⟨k, t, hk, hrun, hst', fl, htrace, hcommands, fun hne => hempty (hne r hcolon hparse)⟩
    · exact .inr ⟨_, hstep, hrefused⟩
  · have hstep := step_nonrecord h.running hst hp (hi.line0_ne_nil (by simp [hst])) hcolon
    obtain ⟨k, t, hk, hrun, hst', htrace, hcommands⟩ :=
      ((h.next hstep).acknowledge rfl rfl rfl).of_internal hstep rfl
    exact .inl ⟨k, t, by omega, hrun, hst', [], htrace, hcommands, fun _ => rfl⟩

end Sys2Proof.Machine

/-! PROOFS. Validation (41_record_validate.md R95-R105): what each check answers, in their order, with the record that the
bytes of a line make. The checksum is a sum over those bytes, so it sees every change of one of them. -/

namespace Sys2Proof

/-! ### The checks before the bytes are known (R97-R100) -/

section
variable {c c1 c2 rc : Byte} {body rest : List Byte}

theorem hexbyte_eq_none (h : hexval c1 = none ∨ hexval c2 = none) : hexbyte c1 c2 = none := by
  rw [Option.eq_none_iff_forall_ne_some]
  intro b hb
  obtain ⟨hi, lo, h1, h2, -⟩ := (hexbyte_eq_some _ _ _).1 hb
  rcases h with h | h
  · simp [h1] at h
  · simp [h2] at h

/-- The first byte of a run is that of its first two digits. -/
theorem hexBytes_getD_zero {b : List Byte} (hrc : hexbyte c1 c2 = some rc) (hb : hexBytes (c1 :: c2 :: rest) = some b) :
    b.getD 0 0#8 = rc := by
  rw [hexBytes, hrc] at hb
  cases hrest : hexBytes rest with
  | none => simp [hrest] at hb
  | some bs =>
    simp only [hrest, Option.some.injEq] at hb
    rw [← hb, List.getD_cons_zero]

theorem parse_of_length_lt (h : (c :: body).length < 3) : parse (c :: body) = .error .badLength := by
  match body, h with
  | [], _ => rfl
  | [_], _ => rfl
  | _ :: _ :: _, h => simp at h; omega

theorem parse_of_hexbyte_none (h : hexbyte c1 c2 = none) : parse (c :: c1 :: c2 :: rest) = .error .badChar := by
  simp [parse, h]

theorem parse_of_length_ne (hrc : hexbyte c1 c2 = some rc)
    (hlen : (c :: c1 :: c2 :: rest).length ≠ 11 + 2 * rc.toNat) :
    parse (c :: c1 :: c2 :: rest) = .error .badLength := by
  simp only [parse, hrc, if_pos hlen]

theorem parse_of_hexBytes_none (hrc : hexbyte c1 c2 = some rc)
    (hlen : (c :: c1 :: c2 :: rest).length = 11 + 2 * rc.toNat) (hb : hexBytes rest = none) :
    parse (c :: c1 :: c2 :: rest) = .error .badChar := by
  simp only [parse, hrc, if_neg (not_not_intro hlen), hb]

end

/-! ### The record of some bytes (30_encoding.md R67-R69, R101) -/

/-- The record whose bytes, in line order, are `b`. -/
def Record.ofBytes (b : List Byte) : Record :=
  { rc := b.getD 0 0#8
    ra := (b.getD 1 0#8).setWidth 16 <<< 8 ||| (b.getD 2 0#8).setWidth 16
    rt := b.getD 3 0#8
    rd := (b.drop 4).take (b.getD 0 0#8).toNat
    cs := b.getD (4 + (b.getD 0 0#8).toNat) 0#8 }

section
variable {b : List Byte}

/-- The bytes of a record with `rc` payload bytes are its byte count, three bytes of address and type, the payload and
the checksum. -/
theorem exists_cons_of_record_length (h : b.length = (b.getD 0 0#8).toNat + 5) :
    ∃ rc hi lo rt tail, b = rc :: hi :: lo :: rt :: tail ∧ tail.length = rc.toNat + 1 := by
  match b, h with
  | rc :: hi :: lo :: rt :: tail, h => exact ⟨rc, hi, lo, rt, tail, rfl, by simpa using h⟩
  | [], h | [_], h | [_, _], h | [_, _, _], h => simp at h

theorem Record.ofBytes_cons (rc hi lo rt : Byte) (tail : List Byte) :
    Record.ofBytes (rc :: hi :: lo :: rt :: tail) =
      { rc := rc, ra := hi.setWidth 16 <<< 8 ||| lo.setWidth 16, rt := rt,
        rd := tail.take rc.toNat, cs := tail.getD rc.toNat 0#8 } := by
  simp [ofBytes, Nat.add_comm 4]

theorem Record.body_ofBytes (h : b.length = (b.getD 0 0#8).toNat + 5) :
    (Record.ofBytes b).body ++ [(Record.ofBytes b).cs] = b := by
  obtain ⟨rc, hi, lo, rt, tail, rfl, htail⟩ := exists_cons_of_record_length h
  obtain ⟨hhi, hlo⟩ := half_bytes hi lo
  rw [ofBytes_cons, body, hhi, hlo]
  simp only [List.cons_append, take_append_getD tail _ _ htail]

theorem Record.checksumOk_iff_byteSum (r : Record) : r.checksumOk = true ↔ byteSum (r.body ++ [r.cs]) = 0#8 := by
  simp [Record.checksumOk, byteSum_append, byteSum]

theorem byteSum_eq_zero_iff : byteSum b = 0#8 ↔ (b.map BitVec.toNat).sum % 256 = 0 := by
  rw [← byteSum_toNat, ← BitVec.toNat_inj]; rfl

/-- The last two checks, once every pair of digits has its byte and the count of the bytes is right (R102-R104). -/
theorem parse_hexText (c : Byte) (h : b.length = (b.getD 0 0#8).toNat + 5) :
    parse (c :: hexText b) =
      if byteSum b ≠ 0#8 then .error .badChecksum
      else if b.getD 3 0#8 = 0x04#8 ∧ b.getD 0 0#8 ≠ 2#8 then .error .badExtlen
      else .ok (Record.ofBytes b) := by
  have hck := (Record.ofBytes b).checksumOk_iff_byteSum
  rw [Record.body_ofBytes h] at hck
  obtain ⟨rc, hi, lo, rt, tail, rfl, htail⟩ := exists_cons_of_record_length h
  have htext : hexText (rc :: hi :: lo :: rt :: tail) =
      hexDigit (rc.extractLsb' 4 4) :: hexDigit (rc.extractLsb' 0 4) :: hexText (hi :: lo :: rt :: tail) := rfl
  rw [htext, parse, hexbyte_hexDigits]
  simp only
  rw [if_neg (by simp [htail]; omega), hexBytes_hexText]
  simp only [ne_eq, ← hck, Bool.not_eq_true, Record.ofBytes_cons, List.getD_cons_succ, List.getD_cons_zero]

/-! ### One changed digit (R102) -/

/-- Replacing one digit of a text by another digit replaces one byte. -/
theorem exists_hexText_set {c : Byte} (hc : hexval c ≠ none) (b : List Byte) :
    ∀ j, j < 2 * b.length → ∃ x, (hexText b).set j c = hexText (b.set (j / 2) x) := by
  obtain ⟨v, hv⟩ := Option.ne_none_iff_exists'.1 hc
  obtain rfl := hexDigit_of_hexval c v hv
  induction b with
  | nil => simp
  | cons a b ih =>
    intro j hj
    match j, hj with
    | 0, _ =>
      refine ⟨v.setWidth 8 <<< 4 ||| (a.extractLsb' 0 4).setWidth 8, ?_⟩
      simp only [Nat.zero_div, List.set_cons_zero, hexText, hex2_of_nibbles]
      rfl
    | 1, _ =>
      refine ⟨(a.extractLsb' 4 4).setWidth 8 <<< 4 ||| v.setWidth 8, ?_⟩
      simp only [Nat.reduceDiv, List.set_cons_zero, hexText, hex2_of_nibbles]
      rfl
    | j + 2, hj =>
      obtain ⟨x, hx⟩ := ih j (by simp only [List.length_cons] at hj; omega)
      exact ⟨x, by simp [hexText, hex2, hx]⟩

/-- Replacing one byte by another changes the sum. -/
theorem eq_getElem_of_byteSum_set {k : Nat} {x : Byte} (hk : k < b.length) (h : byteSum (b.set k x) = byteSum b) :
    x = b[k] := by
  induction b generalizing k with
  | nil => simp at hk
  | cons a b ih =>
    cases k with
    | zero => exact add_right_cancel h
    | succ k => exact ih _ (add_left_cancel h)

end

theorem parse_ok_checksum {c : Byte} {body : List Byte} {r : Record} (h : parse (c :: body) = .ok r) :
    r.checksumOk = true := by
  obtain ⟨hwf, -⟩ := (parse_ok_iff _ _ _).1 h
  simp only [Record.wf, Bool.and_eq_true] at hwf
  obtain ⟨⟨-, hck⟩, -⟩ := hwf
  exact hck

/-- An accepted line is the hex text of bytes that sum to 0, as many as their byte count says (R98, R102). -/
theorem bytes_of_parse_ok {c : Byte} {body : List Byte} {r : Record} (h : parse (c :: body) = .ok r) :
    ∃ b, body = hexText b ∧ b.length = (b.getD 0 0#8).toNat + 5 ∧ byteSum b = 0#8 := by
  obtain ⟨-, hbody⟩ := (parse_ok_iff _ _ _).1 h
  exact ⟨_, hbody, by simp [Record.body, parse_ok_length h], r.checksumOk_iff_byteSum.1 (parse_ok_checksum h)⟩

/-- Settles O9: the changed digit belongs to one byte, which is not the byte count, so the line has as many bytes as
before and another sum. -/
theorem oneChangedDigitFailsTheChecksum : Obligations.OneChangedDigitFailsTheChecksum := by
  intro body r j c h h2 hj hc hne
  obtain ⟨b, rfl, hlen, hsum⟩ := bytes_of_parse_ok h
  have hj' : j < 2 * b.length := by simpa using hj
  obtain ⟨x, hx⟩ := exists_hexText_set hc b j hj'
  have hx_ne : x ≠ b[j / 2] := by
    rintro rfl
    rw [List.set_getElem_self] at hx
    exact hne (by rw [← hx]; simp [hj'])
  have hcount : (b.set (j / 2) x).getD 0 0#8 = b.getD 0 0#8 := by
    simp [List.getD, List.getElem?_set_ne (show j / 2 ≠ 0 by omega)]
  rw [hx, parse_hexText _ (by rw [hcount, List.length_set, hlen]), if_pos]
  exact fun h0 => hx_ne (eq_getElem_of_byteSum_set (by omega) (h0.trans hsum.symm))

/-! ### The checks, and the line of a valid record -/

/-- Settles O8: one lemma for each check, in their order, and the record of the bytes at the end. -/
theorem validationChecksInOrder : Obligations.ValidationChecksInOrder := by
  intro body c
  refine ⟨parse_of_length_lt, ?_⟩
  rintro c1 c2 rest rfl
  refine ⟨fun h => parse_of_hexbyte_none (hexbyte_eq_none h), fun rc hrc => ⟨parse_of_length_ne hrc, fun hlen => ?_⟩⟩
  refine ⟨fun h => parse_of_hexBytes_none hrc hlen (hexBytes_none _ h), fun b hb => ?_⟩
  have hcount := hexBytes_getD_zero hrc hb
  have hbytes : b.length = (b.getD 0 0#8).toNat + 5 := by
    have := hexBytes_length _ _ hb
    rw [hcount]
    simp only [c, List.length_cons] at this hlen
    omega
  have hparse := parse_hexText Byte.colon hbytes
  rw [hexText_of_hexBytes _ _ hb, hcount] at hparse
  rw [hparse, ne_eq, ← byteSum_eq_zero_iff]
  refine ⟨fun hsum => if_pos hsum, fun hsum => ?_⟩
  rw [if_neg (not_not_intro hsum)]
  refine ⟨fun hext => if_pos hext, fun hext => ?_⟩
  rw [if_neg hext, Record.ofBytes, hcount, half_eq_ofNat]

/-- The line of an accepted record is the one the encoder writes for its fields (R105, 30_encoding.md R76). -/
theorem enc_of_parse_ok {c : Byte} {body : List Byte} {r : Record} (h : parse (c :: body) = .ok r) :
    enc r.rc r.ra r.rt r.rd = Byte.colon :: (body ++ [Byte.cr]) := by
  obtain ⟨-, rfl⟩ := (parse_ok_iff _ _ _).1 h
  rw [hexText_append, (checksumOk_iff r).1 (parse_ok_checksum h)]
  rfl

end Sys2Proof

/-! PROOFS. What follows validation (41_record_validate.md R95, R104-R106): the LINE_C0 operations, which end in one of
three ways, and the flash commands, which only a valid DATA record leads to. -/

namespace Sys2Proof.Machine

section
variable {s t : State} {body : List Byte}

/-! ### The LINE_C0 operations (R95, R104, 42_record_dispatch.md R108) -/

theorem exec_record_of_error {e : Reject} (h : parse (Byte.colon :: body) = .error e) :
    exec (.record body) s = .next (s.reject (Verdict.ofReject e)) := by
  rw [exec, execRecord, h]

theorem exec_record_of_ok {r : Record} (h : parse (Byte.colon :: body) = .ok r) :
    exec (.record body) s = .next (s.acceptRecord r) := by
  rw [exec, execRecord, h]

end

/-- Settles O6: RECORD enters DISPATCH only with the record that validation gives. -/
theorem latchedFieldsEncodeToTheLine : Obligations.LatchedFieldsEncodeToTheLine := by
  intro body s t h hst
  cases hp : parse (Byte.colon :: body) with
  | error e => cases (exec_record_of_error hp).symm.trans h; cases hst
  | ok r => cases (exec_record_of_ok hp).symm.trans h; exact enc_of_parse_ok hp

/-- Settles O11: RECORD rejects with the verdict of the failed check, one code for each (R137). -/
theorem invalidRecordLineIsRejected : Obligations.InvalidRecordLineIsRejected :=
  fun _ _ e h => ⟨exec_record_of_error h, by cases e <;> rfl⟩

/-- Settles O12: RECORD latches what validation gives. -/
theorem validRecordIsLatched : Obligations.ValidRecordIsLatched :=
  fun _ _ _ h => exec_record_of_ok h

/-- Settles O13: a LINE_C0 operation ends in `reject`, `acceptRecord` or `acceptNonrecord`. -/
theorem lineOperationsFrame : Obligations.LineOperationsFrame := by
  intro i s t hf h
  rcases exec_next h with ⟨body, e, rfl, -, rfl⟩ | ⟨body, r, rfl, -, rfl⟩ | ⟨-, -, rfl⟩ | ⟨f, rfl, -⟩ | ⟨f, rfl, -⟩ |
    ⟨ra, hi, lo, cs, rfl, -⟩ | ⟨hf', -⟩
  · exact ⟨⟨_, _, _, _, rfl, fun _ => rfl⟩, fun _ => rfl⟩
  · exact ⟨⟨_, _, _, _, rfl, fun hn => absurd rfl (hn body)⟩, fun _ => rfl⟩
  · exact ⟨⟨_, _, _, _, rfl, fun _ => rfl⟩, fun _ => rfl⟩
  · cases hf
  · cases hf
  · cases hf
  · cases hf.symm.trans hf'

/-! ### Flash commands (R106, 42_record_dispatch.md R116, 43_flash_reconcile.md R122, R123) -/

/-- The extended address is the high half of a linear address (R117). -/
theorem linearAddr_toNat (ext ra : Half) : (linearAddr ext ra).toNat = ext.toNat * 65536 + ra.toNat := by
  have hext := ext.isLt
  have hra := ra.isLt
  simp only [linearAddr, BitVec.toNat_or, BitVec.toNat_shiftLeft, BitVec.toNat_setWidth]
  rw [Nat.mod_eq_of_lt (by omega), Nat.mod_eq_of_lt (by omega), Nat.mod_eq_of_lt (by omega)]
  rw [← Nat.shiftLeft_add_eq_or_of_lt hra, Nat.shiftLeft_eq]

section
variable {s t : State} {e : Event}

/-- A command is on offer only for the latched DATA record, and an erase only with E ≠ W. -/
theorem Inv.dataLatched_of_flRequest (hi : Inv s) (h : s.flRequest = some e) :
    s.dataLatched ∧ ∀ a, e = .flErase a → s.cfg.eraseWords ≠ s.cfg.writeWords := by
  rcases (State.flRequest_cases h).1 with hst | hst
  · obtain ⟨hd, hg⟩ := hi.erase hst
    exact ⟨hd, fun _ _ => hg⟩
  · refine ⟨hi.write hst, ?_⟩
    rintro a rfl
    cases hp : s.path <;> cases hu : s.cfg.sharedUnit <;> simp [State.flRequest, hst, hp, hu] at h

/-- A step that adds a flash command to the history completes the one on offer (10_state.md R41). -/
theorem flRequest_of_step (hs : step s = .next t) (htrace : t.trace = e :: s.trace) (he : e ∈ flCommands [e]) :
    s.flRequest = some e := by
  obtain ⟨hl, ⟨-, rfl⟩ | ⟨hr, -⟩⟩ := step_next hs
  · cases s.takeReset_trace.symm.trans htrace
    simp [flCommands] at he
  · exact ((flHandshake s t ⟨hl, hr⟩ hs).2 e ⟨htrace, he⟩).1

end

/-- Settles O38: the command is on offer in a stage whose latch the invariant describes. -/
theorem flashCommandsOnlyForUnprotectedData : Obligations.FlashCommandsOnlyForUnprotectedData := by
  intro s t e hi h htrace he
  obtain ⟨hd, hg⟩ := hi.dataLatched_of_flRequest (flRequest_of_step h htrace he)
  have hout := hd.outside
  obtain ⟨⟨hcolon, hparse, -⟩, hrt, hrc, hlin, hw, hwl, -⟩ := hd
  have hlinNat : s.lin.toNat = s.ext.toNat * 65536 + s.latch.ra.toNat := by rw [hlin, linearAddr_toNat]
  refine ⟨hcolon, hparse, hrt, hrc, ?_, ?_, hout, hg⟩
  · rw [hw, firstWord_toNat, hlinNat]
  · rw [hwl, lastWord_toNat, hlinNat]

end Sys2Proof.Machine

/-! PROOFS. The dispatch of records (42_record_dispatch.md R107-R116): which operation a line and a record select, what
the RECORD_TT operations write, the step of DISPATCH, and the end of a session in RESETTING. -/

namespace Sys2Proof

/-! ### The operation of a line and of a record (R115, 30_encoding.md R77) -/

/-- A byte that exactly one row admits is in some row. -/
theorem exists_row_of_partition {rows : List Row} {c : Byte} (h : (rows.filter (·.admits c)).length = 1) :
    ∃ row ∈ rows, row.admits c = true := by
  obtain ⟨row, hrow⟩ := List.exists_mem_of_length_pos (by rw [h]; exact Nat.one_pos)
  exact ⟨row, List.mem_filter.1 hrow⟩

/-- A row that fixes all eight bits admits its own byte only. -/
theorem eq_of_admits_full {fmt : Format} {p c : Byte} (h : (Row.mk fmt p 0xFF#8).admits c = true) : c = p :=
  BitVec.and_allOnes.symm.trans (beq_iff_eq.1 h)

theorem ofFirstByte_row_of_wf {i : Instr} (hf : i.format = .lineC0) (hwf : i.wf = true)
    (hn : ∀ body, i ≠ .record body) (l : List Byte) :
    (ofFirstByte i.selector l).format = .lineC0 ∧ (ofFirstByte i.selector l).selector = i.selector ∧
      (ofFirstByte i.selector l).row = i.row := by
  rw [ofFirstByte_selector hf hwf hn]
  exact ⟨hf, rfl, rfl⟩

/-- The row that admits the first byte of a line is that of the operation the line selects (R64). -/
theorem ofFirstByte_of_row {row : Row} {c : Byte} (hrow : row ∈ lineRows) (h : row.admits c = true) (l : List Byte) :
    (ofFirstByte c l).format = .lineC0 ∧ (ofFirstByte c l).selector = c ∧ (ofFirstByte c l).row = row := by
  simp only [lineRows, List.mem_cons, List.not_mem_nil, or_false] at hrow
  rcases hrow with rfl | rfl | rfl | rfl | rfl | rfl | rfl | rfl | rfl
  · obtain rfl : c = Byte.colon := eq_of_admits_full h
    exact ⟨rfl, rfl, rfl⟩
  · exact ofFirstByte_row_of_wf (i := .nonrecord00to1F c) rfl h nofun l
  · exact ofFirstByte_row_of_wf (i := .nonrecord20to2F c) rfl h nofun l
  · exact ofFirstByte_row_of_wf (i := .nonrecord30to37 c) rfl h nofun l
  · exact ofFirstByte_row_of_wf (i := .nonrecord38to39 c) rfl h nofun l
  · obtain rfl := eq_of_admits_full h
    exact ⟨rfl, rfl, rfl⟩
  · exact ofFirstByte_row_of_wf (i := .nonrecord3Cto3F c) rfl h nofun l
  · exact ofFirstByte_row_of_wf (i := .nonrecord40to7F c) rfl h nofun l
  · exact ofFirstByte_row_of_wf (i := .nonrecord80toFF c) rfl h nofun l

/-- A well-formed record selects the well-formed operation whose line is the record's: the decoder gives the operation
of either back (R76). -/
theorem ofRecord_of_encode {i : Instr} {r : Record} (hf : i.format = .recordTT) (hi : i.wf = true) (hr : r.wf = true)
    (henc : encode i = enc r.rc r.ra r.rt r.rd) : ofRecord r = .ok i := by
  rw [← decode_enc hr, ← henc, ← hf]
  exact decodeOfEncodeIsInstruction i hi

/-- The row that admits the type byte of a valid record is that of the operation the record selects (R70). -/
theorem exists_ofRecord_of_row {row : Row} {c : Byte} {body : List Byte} {r : Record}
    (hparse : parse (c :: body) = .ok r) (hrow : row ∈ typeRows) (h : row.admits r.rt = true) :
    ∃ i, ofRecord r = .ok i ∧ i.format = .recordTT ∧ i.selector = r.rt ∧ i.row = row := by
  obtain ⟨hwf, -⟩ := (parse_ok_iff _ _ _).1 hparse
  have hrange := Bool.and_eq_true_iff.2 ⟨h, hwf⟩
  have hext := parse_ok_extaddr hparse
  obtain ⟨rc, ra, rt, rd, cs⟩ := r
  simp only [typeRows, List.mem_cons, List.not_mem_nil, or_false] at hrow
  rcases hrow with rfl | rfl | rfl | rfl | rfl | rfl | rfl | rfl | rfl | rfl | rfl | rfl
  · obtain rfl : rt = 0x00#8 := eq_of_admits_full h
    exact ⟨.data _, rfl, rfl, rfl, rfl⟩
  · obtain rfl : rt = 0x01#8 := eq_of_admits_full h
    exact ⟨.eof _, rfl, rfl, rfl, rfl⟩
  · obtain rfl : rt = 0x04#8 := eq_of_admits_full h
    obtain ⟨hi, lo, rfl, rfl⟩ := hext rfl
    exact ⟨.extaddr _ _ _ _, rfl, rfl, rfl, rfl⟩
  · obtain rfl : rt = 0x02#8 := eq_of_admits_full h
    exact ⟨.ignored02 _, rfl, rfl, rfl, rfl⟩
  · obtain rfl : rt = 0x03#8 := eq_of_admits_full h
    exact ⟨.ignored03 _, rfl, rfl, rfl, rfl⟩
  · obtain rfl : rt = 0x05#8 := eq_of_admits_full h
    exact ⟨.ignored05 _, rfl, rfl, rfl, rfl⟩
  · exact ⟨.ignored06to07 rt ⟨rc, ra, rd, cs⟩, ofRecord_of_encode rfl hrange hwf rfl, rfl, rfl, rfl⟩
  · exact ⟨.ignored08to0F rt ⟨rc, ra, rd, cs⟩, ofRecord_of_encode rfl hrange hwf rfl, rfl, rfl, rfl⟩
  · exact ⟨.ignored10to1F rt ⟨rc, ra, rd, cs⟩, ofRecord_of_encode rfl hrange hwf rfl, rfl, rfl, rfl⟩
  · exact ⟨.ignored20to3F rt ⟨rc, ra, rd, cs⟩, ofRecord_of_encode rfl hrange hwf rfl, rfl, rfl, rfl⟩
  · exact ⟨.ignored40to7F rt ⟨rc, ra, rd, cs⟩, ofRecord_of_encode rfl hrange hwf rfl, rfl, rfl, rfl⟩
  · exact ⟨.ignored80toFF rt ⟨rc, ra, rd, cs⟩, ofRecord_of_encode rfl hrange hwf rfl, rfl, rfl, rfl⟩

/-- A line that starts with `:` decodes, in format RECORD_TT, to the operation of the record it holds (R107, R78). -/
theorem decode_of_parse_ok {l : List Byte} {r : Record} (hcolon : l.head? = some Byte.colon)
    (hparse : parse (content l) = .ok r) : decode .recordTT l = ofRecord r := by
  obtain ⟨cs, rfl⟩ := List.head?_eq_some_iff.1 hcolon
  rw [decode, if_pos rfl, hparse]

/-- Settles O4: some row admits the byte (R77), and it is the row of the operation selected; a record line that fails
validation stops before a selection. -/
theorem everyLineSelectsOneOperation : Obligations.EveryLineSelectsOneOperation := by
  refine ⟨fun c cs => ?_, fun cs r hparse => ?_, fun cs e hparse => ?_⟩
  · obtain ⟨row, hrow, hadmits⟩ := exists_row_of_partition (tableRowsPartitionTheBytes.1 c)
    obtain ⟨hformat, hselector, rfl⟩ := ofFirstByte_of_row hrow hadmits (c :: cs)
    exact ⟨_, rfl, hformat, hselector, hrow, hadmits⟩
  · obtain ⟨row, hrow, hadmits⟩ := exists_row_of_partition (tableRowsPartitionTheBytes.2 r.rt)
    obtain ⟨body, hbody⟩ := content_of_colon (Byte.colon :: cs) rfl
    obtain ⟨i, hi, hformat, hselector, rfl⟩ := exists_ofRecord_of_row (hbody ▸ hparse) hrow hadmits
    exact ⟨i, (decode_of_parse_ok rfl hparse).trans hi, hformat, hselector, hrow, hadmits⟩
  · rw [decode, if_pos rfl, hparse]

end Sys2Proof

namespace Sys2Proof.Machine

/-! ### The RECORD_TT operations (R110-R113) -/

/-- The RECORD_TT operations of the types that the rules do not list have one meaning (R113). -/
theorem exec_ignored {s : State} {i : Instr} (hf : i.format = .recordTT) (hdata : ∀ f, i ≠ .data f)
    (heof : ∀ f, i ≠ .eof f) (hext : ∀ ra hi lo cs, i ≠ .extaddr ra hi lo cs) :
    exec i s = .next (s.goto .acknowledge) := by
  cases i
  case data f => exact absurd rfl (hdata f)
  case eof f => exact absurd rfl (heof f)
  case extaddr ra hi lo cs => exact absurd rfl (hext ra hi lo cs)
  case ignored02 | ignored03 | ignored05 | ignored06to07 | ignored08to0F | ignored10to1F | ignored20to3F
      | ignored40to7F | ignored80toFF => rfl
  all_goals cases hf

/-- Settles O25: DATA writes its addresses and path, EXTADDR `ext`, and the other types the sequencer alone. -/
theorem recordOperationsFrame : Obligations.RecordOperationsFrame := by
  intro i s t hf h
  rcases exec_next h with ⟨body, e, rfl, -⟩ | ⟨body, r, rfl, -⟩ | ⟨hf', -⟩ | ⟨f, rfl, hdata⟩ | ⟨f, rfl, rfl⟩ |
    ⟨ra, hi, lo, cs, rfl, rfl⟩ | ⟨-, -, -, -, rfl⟩
  · cases hf
  · cases hf
  · cases hf'.symm.trans hf
  · obtain ⟨x, p, l, w, wl, -, rfl⟩ := execData_shape hdata
    exact ⟨⟨x, p, l, w, wl, s.ext, rfl, fun hn => absurd rfl (hn f), fun _ => rfl⟩, fun _ => rfl⟩
  · exact ⟨⟨_, _, _, _, _, _, rfl, fun _ => ⟨rfl, rfl, rfl, rfl⟩, fun _ => rfl⟩, fun _ => rfl⟩
  · exact ⟨⟨_, _, _, _, _, _, rfl, fun _ => ⟨rfl, rfl, rfl, rfl⟩, fun hn => absurd rfl (hn ra hi lo cs)⟩, fun _ => rfl⟩
  · exact ⟨⟨_, _, _, _, _, _, rfl, fun _ => ⟨rfl, rfl, rfl, rfl⟩, fun _ => rfl⟩, fun _ => rfl⟩

/-- Settles O10: the eight NONRECORD forms have one meaning. -/
theorem nonrecordLinesAreAcknowledged : Obligations.NonrecordLinesAreAcknowledged := by
  intro c s
  refine ⟨?_, ?_, ?_, ?_, ?_, ?_, ?_, ?_⟩ <;> exact exec_nonrecord rfl nofun

/-- Settles O14: the meaning of EOF is the transition. -/
theorem eofGoesToResetting : Obligations.EofGoesToResetting := fun _ _ => rfl

/-- Settles O15: two bytes joined as halves are the number 256·hi + lo. -/
theorem extaddrSetsTheExtendedAddress : Obligations.ExtaddrSetsTheExtendedAddress := by
  intro ra hi lo cs s
  rw [exec, execExtaddr, half_eq_ofNat]
  rfl

/-- Settles O16: the nine IGNORED forms have one meaning. -/
theorem ignoredRecordsAreAcknowledged : Obligations.IgnoredRecordsAreAcknowledged := by
  intro rt f s
  refine ⟨?_, ?_, ?_, ?_, ?_, ?_, ?_, ?_, ?_⟩ <;> exact exec_ignored rfl nofun nofun nofun

/-! ### The step of DISPATCH (R107) -/

theorem step_of_ofRecord {s : State} {i : Instr} (hr : s.running) (hst : s.st = .dispatch)
    (hi : ofRecord s.latch = .ok i) : step s = exec i s := by
  simp [step_of_running hr.1 hr.2, stepState, hst, stepDispatch, fetchRecord, hi]

/-- In DISPATCH the latch and the line in buffer 0 select one operation (R78). -/
theorem Inv.decode_line0 {s : State} (hi : Inv s) (hst : s.st = .dispatch) :
    decode .recordTT s.line0 = ofRecord s.latch := by
  obtain ⟨-, hcolon, hparse, -⟩ := hi.dispatch hst
  exact decode_of_parse_ok hcolon hparse

/-- Settles O27: DISPATCH decodes the latch, which the invariant ties to the line in buffer 0. -/
theorem stepRunsTheDecodedRecord : Obligations.StepRunsTheDecodedRecord :=
  ⟨fun _ _ hr hst hi => step_of_ofRecord hr hst hi,
    fun _ _ hinv hrst hst hi => step_of_ofRecord ⟨hinv.legal, hrst⟩ hst ((hinv.decode_line0 hst).symm.trans hi)⟩

/-! ### The end of a session (R111, R114) -/

section
variable {s : State}

theorem runSteps_of_fixed (h : step s = .next s) (k : Nat) : runSteps k s = .next s := by
  induction k with
  | zero => rfl
  | succ k ih => rw [runSteps_succ k h, ih]

theorem resettingOps_without_xon {c : Config} (h : c.eofFinalXon = false) :
    resettingOps c = [.tx 0x06#8, .tx 0x11#8, .tx 0x06#8, .rstreq] := by
  rw [resettingOps, h]; rfl

theorem resettingOps_with_xon {c : Config} (h : c.eofFinalXon = true) :
    resettingOps c = [.tx 0x06#8, .tx 0x11#8, .tx 0x06#8, .tx 0x11#8, .rstreq] := by
  rw [resettingOps, h]; rfl

theorem resettingOps_length (c : Config) : (resettingOps c).length = if c.eofFinalXon then 5 else 4 := by
  cases h : c.eofFinalXon
  · rw [resettingOps_without_xon h]; rfl
  · rw [resettingOps_with_xon h]; rfl

/-- A step of RESETTING completes the next transaction of the sequence: a byte, or RSTREQ. -/
theorem step_resetting {e : Event} (hr : s.running) (hst : s.st = .resetting) (ht : s.txReady = true)
    (hop : (resettingOps s.cfg)[s.ph]? = some e) : step s = .next (s.emit e).nextPhase := by
  rw [step_of_running hr.1 hr.2, stepState, hst]
  rcases resettingOps_cases hop with rfl | rfl | rfl <;> simp [stepResetting, hop, State.send, ht]

/-- After the sequence RESETTING waits (R114). -/
theorem step_after_resetting (hr : s.running) (hst : s.st = .resetting) (hop : (resettingOps s.cfg)[s.ph]? = none) :
    step s = .next s := by
  simp [step_of_running hr.1 hr.2, stepState, hst, stepResetting, hop]

/-- RESETTING completes the transactions that are left, `l`, in their order. -/
theorem runSteps_resetting {l : List Event} (hr : s.running) (hst : s.st = .resetting) (ht : s.txReady = true)
    (hl : (resettingOps s.cfg).drop s.ph = l) :
    runSteps l.length s = .next { s with ph := s.ph + l.length, trace := l.reverse ++ s.trace } := by
  induction l generalizing s with
  | nil => rfl
  | cons e l ih =>
    have hop : (resettingOps s.cfg)[s.ph]? = some e := by rw [← List.head?_drop, hl]; rfl
    have hrest : (resettingOps s.cfg).drop (s.ph + 1) = l := by rw [← List.tail_drop, hl]; rfl
    rw [List.length_cons, runSteps_succ _ (step_resetting hr hst ht hop),
      ih (s := (s.emit e).nextPhase) hr hst ht hrest]
    simp [State.emit, State.nextPhase, Nat.add_assoc, Nat.add_comm 1]

/-- R111 from its first transaction on, and R114 for the `k` steps after the last. -/
theorem runSteps_resettingOps (hr : s.running) (hst : s.st = .resetting) (hp : s.ph = 0) (ht : s.txReady = true)
    (k : Nat) :
    runSteps ((resettingOps s.cfg).length + k) s =
      .next { s with ph := (resettingOps s.cfg).length, trace := (resettingOps s.cfg).reverse ++ s.trace } := by
  have hrun := runSteps_resetting hr hst ht (by rw [hp, List.drop_zero])
  rw [hp, Nat.zero_add] at hrun
  rw [runSteps_add _ k hrun]
  refine runSteps_of_fixed ?_ k
  apply step_after_resetting
  · exact hr
  · exact hst
  · exact List.getElem?_eq_none le_rfl

end

/-- Settles O32: the sequence for either trailer, run to its end, after which the state is fixed. -/
theorem endOfSessionSequence : Obligations.EndOfSessionSequence := by
  intro s k hr hst hp ht
  have hrun := runSteps_resettingOps hr hst hp ht k
  constructor <;> intro hx
  · rwa [resettingOps_without_xon hx] at hrun
  · rwa [resettingOps_with_xon hx] at hrun

/-- Settles O33: past its last transaction RESETTING has nothing to send, and neither RX nor FL is used in it. -/
theorem nothingAfterDeviceReset : Obligations.NothingAfterDeviceReset := by
  intro s hr hst hph
  have hop : (resettingOps s.cfg)[s.ph]? = none := List.getElem?_eq_none (by rwa [resettingOps_length])
  refine ⟨step_after_resetting hr hst hop, ?_, ?_, ?_⟩
  · simp [State.rxReady, hst]
  · simp [State.txData, hst, hop]
  · simp [State.flRequest, hst]

end Sys2Proof.Machine

/-! PROOFS. Where a DATA record goes and when it erases first (43_flash_reconcile.md R117-R126, R132-R134): the
addresses in exact integers, the erase decision, and what DATA answers in each case of its rules. -/

namespace Sys2Proof.Machine

/-! ### The addresses (R117-R119, R130) -/

/-- Settles O17: the linear address has 32 bits, so the last word is far enough below 2^32 for the word after it. -/
theorem addressArithmetic : Obligations.AddressArithmetic := by
  intro ext ra rc _ lin
  have hlin : (linearAddr ext ra).toNat = lin := linearAddr_toNat ext ra
  have hlast : (lastWord (linearAddr ext ra) rc).toNat = (lin + rc.toNat - 1) / 2 := by rw [lastWord_toNat, hlin]
  have hbound : lin < 2 ^ 32 := hlin ▸ (linearAddr ext ra).isLt
  have hrc : rc.toNat < 2 ^ 8 := rc.isLt
  refine ⟨hlin, by rw [firstWord_toNat, hlin], by omega, hlast, by omega, ?_⟩
  rw [wordAfter, BitVec.toNat_add_of_lt] <;> rw [hlast]
  · rfl
  · change _ + 1 < 2 ^ 32
    omega

section
variable (s : State) (f : Fields)

theorem linearAddr_eq_ofNat (ext ra : Half) : linearAddr ext ra = BitVec.ofNat 32 (ext.toNat * 65536 + ra.toNat) := by
  rw [← linearAddr_toNat, BitVec.ofNat_toNat, BitVec.setWidth_eq]

theorem firstWord_eq_ofNat (lin : Word) : firstWord lin = BitVec.ofNat 32 (lin.toNat / 2) := by
  rw [← firstWord_toNat, BitVec.ofNat_toNat, BitVec.setWidth_eq]

/-- A DATA record latches its addresses as the integers of R117-R119, whatever the path taken afterwards. -/
theorem State.latchAddresses_eq :
    s.latchAddresses f =
      { s with
        lin := BitVec.ofNat 32 (s.ext.toNat * 65536 + f.ra.toNat)
        w := BitVec.ofNat 32 ((s.ext.toNat * 65536 + f.ra.toNat) / 2)
        wl := BitVec.ofNat 32 ((s.ext.toNat * 65536 + f.ra.toNat + f.rc.toNat - 1) / 2) } := by
  rw [latchAddresses, firstWord_eq_ofNat, lastWord, linearAddr_toNat, linearAddr_eq_ofNat]

theorem State.latchAddresses_w_toNat :
    (s.latchAddresses f).w.toNat = (s.ext.toNat * 65536 + f.ra.toNat) / 2 := by
  rw [latchAddresses_w, firstWord_toNat, linearAddr_toNat]

theorem State.latchAddresses_wl_toNat :
    (s.latchAddresses f).wl.toNat = (s.ext.toNat * 65536 + f.ra.toNat + f.rc.toNat - 1) / 2 := by
  rw [latchAddresses_wl, lastWord_toNat, linearAddr_toNat]

end

/-! ### The erase decision (R125, R126, R132-R134) -/

section
variable {e n w : Nat}

/-- R125: `NB(n)` is the least unit boundary at or after `n`. -/
theorem nextBoundary_isLeast (he : 0 < e) : IsLeast {k | k % e = 0 ∧ n ≤ k} (nextBoundary e n) := by
  have hceil : nextBoundary e n = e • (n ⌈/⌉ e) := Nat.mul_comm _ _
  rw [hceil]
  refine ⟨⟨Nat.mul_mod_right _ _, le_smul_ceilDiv he⟩, ?_⟩
  rintro k ⟨hk, hn⟩
  obtain ⟨m, rfl⟩ := Nat.dvd_of_mod_eq_zero hk
  exact Nat.mul_le_mul_left e ((ceilDiv_le_iff_le_smul he).2 hn)

/-- R126: an aligned word other than `n` lies at or beyond the least boundary from `n` on exactly if it lies beyond `n`,
being a boundary itself. -/
theorem ne_and_boundary_le_iff {b : Nat} (hb : IsLeast {k | k % e = 0 ∧ n ≤ k} b) (hw : w % e = 0) :
    w ≠ n ∧ b ≤ w ↔ n < w := by
  obtain ⟨⟨-, hnb⟩, hleast⟩ := hb
  constructor
  · rintro ⟨hne, hbw⟩; omega
  · intro hlt; exact ⟨hlt.ne', hleast ⟨hw, hlt.le⟩⟩

/-- R125 in words, for an aligned word: some boundary at or after `n` is the least such, and the word has reached it. -/
theorem exists_boundary_iff (he : 0 < e) (hw : w % e = 0) :
    (∃ b, w ≠ n ∧ b % e = 0 ∧ n ≤ b ∧ (∀ k, k % e = 0 → n ≤ k → b ≤ k) ∧ b ≤ w) ↔ n < w := by
  constructor
  · rintro ⟨b, hne, hb, hnb, hmin, hbw⟩
    exact (ne_and_boundary_le_iff ⟨⟨hb, hnb⟩, fun k hk => hmin k hk.1 hk.2⟩ hw).1 ⟨hne, hbw⟩
  · intro hlt
    have hleast := nextBoundary_isLeast (n := n) he
    obtain ⟨hne, hbw⟩ := (ne_and_boundary_le_iff hleast hw).2 hlt
    obtain ⟨⟨hb, hnb⟩, hmin⟩ := hleast
    exact ⟨_, hne, hb, hnb, fun k hk hnk => hmin ⟨hk, hnk⟩, hbw⟩

/-- R126, the other reading of "the next erase-unit boundary": the one strictly after `n`. -/
theorem ne_and_unit_after_le_iff (he : 0 < e) (hw : w % e = 0) : w ≠ n ∧ (n / e + 1) * e ≤ w ↔ n < w := by
  obtain ⟨m, rfl⟩ := Nat.dvd_of_mod_eq_zero hw
  have hunit : (n / e + 1) * e ≤ e * m ↔ n < e * m := by
    rw [Nat.mul_comm e m, Nat.mul_le_mul_right_iff he, Nat.succ_le_iff, Nat.div_lt_iff_lt_mul he]
  rw [hunit]
  exact ⟨And.right, fun hlt => ⟨hlt.ne', hlt⟩⟩

end

section
variable {e : Nat} {w n : Word}

@[simp] theorem eraseNeeded_none : eraseNeeded e w none = true ↔ w.toNat % e = 0 := by
  simp [eraseNeeded]

theorem eraseNeeded_some (he : 0 < e) : eraseNeeded e w (some n) = true ↔ w.toNat % e = 0 ∧ n.toNat < w.toNat := by
  simp only [eraseNeeded, Bool.and_eq_true, beq_iff_eq, bne_iff_ne, decide_eq_true_eq]
  refine and_congr_right fun hw => ?_
  rw [← ne_and_boundary_le_iff (nextBoundary_isLeast he) hw, BitVec.toNat_inj.ne]

/-- R126. -/
theorem eraseNeeded_iff (he : 0 < e) (nextAddr : Option Word) :
    eraseNeeded e w nextAddr = true ↔
      w.toNat % e = 0 ∧ (nextAddr = none ∨ ∃ n, nextAddr = some n ∧ n.toNat < w.toNat) := by
  cases nextAddr with
  | none => simp
  | some n => simp [eraseNeeded_some he]

end

/-- Settles O23: an aligned word is beyond `n` exactly if it has reached the next boundary, whichever of the two
boundaries is meant. -/
theorem eraseDecisionIsForwardJump : Obligations.EraseDecisionIsForwardJump := by
  refine ⟨fun e w nextAddr he => eraseNeeded_iff he nextAddr, fun e w n he hw => ?_⟩
  rw [← BitVec.toNat_inj.ne]
  exact ⟨ne_and_boundary_le_iff (nextBoundary_isLeast he) hw, ne_and_unit_after_le_iff he hw⟩

/-- Settles O24: an erase needs an aligned word beyond `n`, and the only aligned word of a unit is its base. -/
theorem noEraseWithoutForwardJump : Obligations.NoEraseWithoutForwardJump := by
  intro e w n he
  simp only [← Bool.not_eq_true, eraseNeeded_none, eraseNeeded_some he, not_and, Nat.not_lt]
  refine ⟨fun hle _ => hle, fun hw => ⟨fun h0 => absurd h0 hw, hw⟩, fun u hu huw hwu hun hw => ?_⟩
  rcases huw.eq_or_lt with rfl | hlt
  · exact hun.le
  · have hnext : u + e ≤ w.toNat := Nat.ModEq.add_le_of_lt (hu.trans hw.symm) hlt
    omega

/-! ### What DATA answers (R120-R125) -/

section
variable {s : State} {f : Fields} {u : Word}

theorem overlapsLoader_iff {c : Config} {w wl : Word} :
    overlapsLoader c w wl = true ↔ w.toNat ≤ c.lrEnd.toNat ∧ c.lrStart.toNat ≤ wl.toNat := by
  simp [overlapsLoader]

theorem meetsUnit_iff {e : Nat} {w wl : Word} :
    meetsUnit u e w wl = true ↔ w.toNat ≤ u.toNat + e - 1 ∧ u.toNat ≤ wl.toNat := by
  simp [meetsUnit]

theorem insideUnit_iff {e : Nat} {w wl : Word} :
    insideUnit u e w wl = true ↔ u.toNat ≤ w.toNat ∧ wl.toNat ≤ u.toNat + e - 1 := by
  simp [insideUnit]

theorem exec_data_of_empty (h : f.rc = 0#8) : exec (.data f) s = .next (s.goto .acknowledge) := by
  simp [exec, execData, h]

/-- R121. -/
theorem exec_data_of_protected (hrc : f.rc ≠ 0#8)
    (h : overlapsLoader s.cfg (s.latchAddresses f).w (s.latchAddresses f).wl = true) :
    exec (.data f) s = .next ((s.latchAddresses f).goto .acknowledge) := by
  rw [exec, execData, if_neg hrc]
  exact if_pos h

/-- R122: what is outside the loader region is written. -/
theorem exec_data_of_unprotected (hrc : f.rc ≠ 0#8)
    (h : s.cfg.lrEnd.toNat < (s.latchAddresses f).w.toNat ∨ (s.latchAddresses f).wl.toNat < s.cfg.lrStart.toNat) :
    exec (.data f) s = (s.latchAddresses f).chooseWrite := by
  rw [← overlapsLoader_eq_false_iff, ← Bool.not_eq_true] at h
  rw [exec, execData, if_neg hrc]
  exact if_neg h

theorem State.chooseWrite_of_equal (h : s.cfg.eraseWords = s.cfg.writeWords) :
    s.chooseWrite = .next (s.takePath .normal .write) := if_pos h

/-- R124. -/
theorem State.chooseWrite_of_meets (hne : s.cfg.eraseWords ≠ s.cfg.writeWords) (hu : s.cfg.sharedUnit = some u)
    (hm : meetsUnit u s.cfg.eraseWords.toNat s.w s.wl = true) :
    s.chooseWrite =
      if insideUnit u s.cfg.eraseWords.toNat s.w s.wl then .next (s.takePath .rmw .erase)
      else .refused .sharedStraddle := by
  simp only [chooseWrite, if_neg hne, hu, if_pos hm]

theorem State.chooseWrite_of_not_meets (hne : s.cfg.eraseWords ≠ s.cfg.writeWords)
    (hm : ∀ u, s.cfg.sharedUnit = some u → meetsUnit u s.cfg.eraseWords.toNat s.w s.wl = false) :
    s.chooseWrite = .next s.normalPath := by
  rw [chooseWrite, if_neg hne]
  cases hu : s.cfg.sharedUnit with
  | none => rfl
  | some u => exact if_neg (by simp [hm u hu])

end

/-- Settles O18: a record of no bytes is done with before its addresses are latched. -/
theorem emptyDataChangesNothing : Obligations.EmptyDataChangesNothing := fun _ _ h => exec_data_of_empty h

/-- Settles O19: the test for the loader region on the latched words. -/
theorem protectedDataIsSkipped : Obligations.ProtectedDataIsSkipped := by
  intro f s lin wl hrc hw hwl
  rw [exec_data_of_protected hrc, State.latchAddresses_eq]
  · rfl
  · rw [overlapsLoader_iff, State.latchAddresses_w_toNat, State.latchAddresses_wl_toNat]
    exact ⟨hw, hwl⟩

/-- Settles O20: with E = W the choice is made before the shared unit is looked at. -/
theorem equalGeometryNeverErases : Obligations.EqualGeometryNeverErases := by
  intro f s lin wl hrc hout heq
  rw [exec_data_of_unprotected hrc, State.chooseWrite_of_equal (by exact heq), State.latchAddresses_eq]
  · rfl
  · rwa [State.latchAddresses_w_toNat, State.latchAddresses_wl_toNat]

/-- Settles O21: a record that meets the unit takes the read-modify-write or is refused, as it lies inside or not. -/
theorem sharedUnitSelection : Obligations.SharedUnitSelection := by
  intro f s u lin w wl e hrc hout hne hu hlow hhigh
  have hw : (s.latchAddresses f).w.toNat = w := s.latchAddresses_w_toNat f
  have hwl : (s.latchAddresses f).wl.toNat = wl := s.latchAddresses_wl_toNat f
  have hmeets : meetsUnit u e (s.latchAddresses f).w (s.latchAddresses f).wl = true := by
    rw [meetsUnit_iff, hw, hwl]; exact ⟨hlow, hhigh⟩
  have hinside : insideUnit u e (s.latchAddresses f).w (s.latchAddresses f).wl = true ↔
      u.toNat ≤ w ∧ wl ≤ u.toNat + e - 1 := by
    rw [insideUnit_iff, hw, hwl]
  rw [exec_data_of_unprotected hrc (by rwa [hw, hwl]),
    State.chooseWrite_of_meets (s := s.latchAddresses f) hne hu hmeets, ← hinside]
  refine ⟨fun h => (if_pos h).trans ?_, fun h => if_neg h⟩
  rw [State.latchAddresses_eq]
  rfl

/-- Settles O22: R125's condition on the least boundary at or after `n` is the model's, and the normal path is taken
because the record does not meet the shared unit. -/
theorem eraseDecision : Obligations.EraseDecision := by
  intro f s lin w wl e latched jump hlegal hrc hout hne hunit
  have hw : (s.latchAddresses f).w.toNat = w := s.latchAddresses_w_toNat f
  have hwl : (s.latchAddresses f).wl.toNat = wl := s.latchAddresses_wl_toNat f
  obtain ⟨hwrite, hle, -⟩ := (configLegal_iff s.cfg).1 hlegal
  have he : 0 < e := hwrite.trans hle
  have hmeets (u : Word) (hu : s.cfg.sharedUnit = some u) :
      meetsUnit u e (s.latchAddresses f).w (s.latchAddresses f).wl = false := by
    rw [← Bool.not_eq_true, meetsUnit_iff, hw, hwl]
    have := hunit u hu
    omega
  have hjump : jump ↔ eraseNeeded e (s.latchAddresses f).w s.nextAddr = true := by
    rw [eraseNeeded_iff he, hw]
    refine and_congr_right fun hal => or_congr_right (exists_congr fun n => ?_)
    rw [exists_and_left, exists_boundary_iff he hal]
  rw [exec_data_of_unprotected hrc (by rwa [hw, hwl]),
    State.chooseWrite_of_not_meets (s := s.latchAddresses f) hne hmeets, hjump]
  have hlatched (x : St) : (s.latchAddresses f).takePath .normal x = { latched with st := x } := by
    rw [State.latchAddresses_eq]; rfl
  rcases (s.latchAddresses f).normalPath_cases with ⟨hneed, hp⟩ | ⟨hneed, hp⟩ <;> rw [hp, hlatched]
  · exact ⟨fun _ => rfl, fun h => absurd hneed h⟩
  · exact ⟨fun h => absurd (h.symm.trans hneed) nofun, fun _ => rfl⟩

end Sys2Proof.Machine

/-! PROOFS. The flash commands of a DATA record (43_flash_reconcile.md R127-R131): what a step of ERASE and of WRITE
does on the normal path, and the read-modify-write as a whole. -/

namespace Sys2Proof.Machine

section
variable {s : State} {a : Word} {d : List Byte} {n : Nat}

/-! ### FlashErase and FlashWrite (20_memory.md R58) -/

theorem State.flashErase_eq :
    s.flashErase a = { s with flash := (s.flashErase a).flash, trace := .flErase a :: s.trace } := by
  obtain ⟨m, e⟩ := flashErase_shape s a
  rw [e]

theorem State.flashWrite_eq :
    s.flashWrite a d n = { s with flash := (s.flashWrite a d n).flash, trace := .flWrite a d n :: s.trace } := by
  obtain ⟨m, e⟩ := flashWrite_shape s a d n
  rw [e]

/-- The field is the reference flash: commands to another device leave it (log entry 8). -/
theorem State.flashErase_flash_of_unspecified (hd : s.device = .unspecified) : (s.flashErase a).flash = s.flash := by
  rw [flashErase, hd]; rfl

theorem State.flashWrite_flash_of_unspecified (hd : s.device = .unspecified) :
    (s.flashWrite a d n).flash = s.flash := by
  rw [flashWrite, hd]; rfl

/-- The unit that a word at its base names is the one of E words from there on. -/
theorem State.flashErase_read_of_base (hd : s.device = .reference) (ha : a.toNat % s.cfg.eraseWords.toNat = 0)
    (j : Nat) :
    (s.flashErase a).flash.read j =
      if 2 * a.toNat ≤ j ∧ j < 2 * (a.toNat + s.cfg.eraseWords.toNat) then Memory.blank else s.flash.read j := by
  rw [flashErase_read a j hd, ha, Nat.sub_zero]

/-- A command that writes all of its data. -/
theorem State.flashWrite_read_of_length (hd : s.device = .reference) (hw : s.flash.wf = true) (hn : d.length = n)
    (j : Nat) :
    (s.flashWrite a d n).flash.read j =
      if 2 * a.toNat ≤ j ∧ j < 2 * a.toNat + n then d.getD (j - 2 * a.toNat) 0#8 else s.flash.read j := by
  rw [flashWrite_read a d n j hd hw, List.take_of_length_le hn.le, hn]
  refine if_ctx_congr Iff.rfl (fun hj => ?_) fun _ => rfl
  have hlt : j - 2 * a.toNat < d.length := by omega
  rw [List.getD_eq_getElem _ _ hlt, List.getD_eq_getElem _ _ hlt]

/-- FlashRead answers, in its place, each byte that the reference flash holds. -/
theorem State.flashAnswer_read {k : Nat} (hd : s.device = .reference) (hk : k < n) :
    (s.flashAnswer a n).getD k 0#8 = s.flash.read (2 * a.toNat + k) := by
  rw [flashAnswer, hd]
  exact Memory.readBytes_getD _ _ _ _ _ hk

/-! ### The normal path (R127, R129, R130) -/

theorem State.command_of_done {k : State → State} (h : s.flDone = true) : s.command k = .next (k s) := if_pos h

theorem step_erase_normal (hr : s.running) (hst : s.st = .erase) (hp : s.path = .normal) (hd : s.flDone = true) :
    step s = .next ((s.flashErase s.w).goto .write) := by
  rw [step_of_running hr.1 hr.2, stepState, hst]
  simp only [stepErase, hp, eraseNormal, State.command_of_done hd]

theorem step_write_normal (hr : s.running) (hst : s.st = .write) (hp : s.path = .normal) (hd : s.flDone = true) :
    step s = .next (s.flashWrite s.w s.latch.rd s.latch.rc.toNat).wrote := by
  rw [step_of_running hr.1 hr.2, stepState, hst]
  simp only [stepWrite, hp, writeNormal, State.command_of_done hd]

end

/-- Settles O34: the command is FlashErase(w), and w is the base of the unit it erases. -/
theorem normalEraseErasesOneUnit : Obligations.NormalEraseErasesOneUnit := by
  intro s hr hst hp hd hbase
  refine ⟨(s.flashErase s.w).flash, ?_, State.flashErase_flash_of_unspecified,
    fun href => State.flashErase_read_of_base href hbase⟩
  rw [step_erase_normal hr hst hp hd, State.flashErase_eq]
  rfl

/-- Settles O35: the command is FlashWrite(w, rd, rc) with all of `rd`. -/
theorem normalWriteStoresThePayload : Obligations.NormalWriteStoresThePayload := by
  intro s hr hst hp hd hwf hlen
  refine ⟨(s.flashWrite s.w s.latch.rd s.latch.rc.toNat).flash, ?_, State.flashWrite_flash_of_unspecified,
    fun href => ⟨fun i hi => ?_, fun j hj => ?_⟩⟩
  · rw [step_write_normal hr hst hp hd, State.flashWrite_eq]
    rfl
  · rw [State.flashWrite_read_of_length href hwf hlen, if_pos (by omega), Nat.add_sub_cancel_left]
  · rw [State.flashWrite_read_of_length href hwf hlen, if_neg (by omega)]

/-! ### The read-modify-write (R128) -/

section
variable {s : State} {u : Word}

/-- What the read-modify-write writes to the unit at `u`: what the device answered for it, with the payload merged in
(`rmwMerged_scratch`). -/
def State.rmwBuffer (s : State) (u : Word) : List Byte :=
  mergeAt (s.flashAnswer u (2 * s.cfg.eraseWords.toNat)) (2 * (s.w.toNat - u.toNat))
    (s.latch.rd.take s.latch.rc.toNat)

/-- ERASE after the read and the merge. -/
def State.rmwMerged (s : State) (u : Word) : State :=
  ((s.flashReadScratch u (2 * s.cfg.eraseWords.toNat)).nextPhase.mergePayload u).nextPhase

/-- The state after the four steps (`runSteps_rmw`). -/
def State.rmwDone (s : State) (u : Word) : State :=
  ((((s.rmwMerged u).flashErase u).goto .write).flashWrite u (s.rmwBuffer u) (2 * s.cfg.eraseWords.toNat)).wrote

@[simp] theorem State.rmwMerged_scratch : (s.rmwMerged u).scratch = s.rmwBuffer u := rfl
@[simp] theorem State.rmwMerged_cfg : (s.rmwMerged u).cfg = s.cfg := rfl
@[simp] theorem State.rmwMerged_device : (s.rmwMerged u).device = s.device := rfl
@[simp] theorem State.rmwMerged_flash : (s.rmwMerged u).flash = s.flash := rfl

@[simp] theorem State.rmwBuffer_length : (s.rmwBuffer u).length = 2 * s.cfg.eraseWords.toNat := by
  simp [rmwBuffer]

/-! The steps. -/

theorem step_rmw_read (hr : s.running) (hst : s.st = .erase) (hp : s.path = .rmw) (hu : s.cfg.sharedUnit = some u)
    (hph : s.ph = 0) (hd : s.flDone = true) :
    step s = .next (s.flashReadScratch u (2 * s.cfg.eraseWords.toNat)).nextPhase := by
  rw [step_of_running hr.1 hr.2, stepState, hst]
  simp only [stepErase, hp, hu, eraseRmw, if_pos hph, State.command_of_done hd]

theorem step_rmw_merge (hr : s.running) (hst : s.st = .erase) (hp : s.path = .rmw) (hu : s.cfg.sharedUnit = some u)
    (hph : s.ph = 1) : step s = .next (s.mergePayload u).nextPhase := by
  rw [step_of_running hr.1 hr.2, stepState, hst]
  simp [stepErase, hp, hu, eraseRmw, hph]

theorem step_rmw_erase (hr : s.running) (hst : s.st = .erase) (hp : s.path = .rmw) (hu : s.cfg.sharedUnit = some u)
    (hph : s.ph = 2) (hd : s.flDone = true) : step s = .next ((s.flashErase u).goto .write) := by
  rw [step_of_running hr.1 hr.2, stepState, hst]
  simp [stepErase, hp, hu, eraseRmw, hph, State.command_of_done hd]

theorem step_rmw_write (hr : s.running) (hst : s.st = .write) (hp : s.path = .rmw) (hu : s.cfg.sharedUnit = some u)
    (hd : s.flDone = true) :
    step s = .next (s.flashWrite u s.scratch (2 * s.cfg.eraseWords.toNat)).wrote := by
  rw [step_of_running hr.1 hr.2, stepState, hst]
  simp only [stepWrite, hp, hu, writeRmw, State.command_of_done hd]

/-- Read, merge, erase, write. -/
theorem runSteps_rmw (hr : s.running) (hst : s.st = .erase) (hp : s.path = .rmw) (hu : s.cfg.sharedUnit = some u)
    (hph : s.ph = 0) (hd : s.flDone = true) : runSteps 4 s = .next (s.rmwDone u) := by
  have hread := step_rmw_read hr hst hp hu hph hd
  have hmerge : step (s.flashReadScratch u (2 * s.cfg.eraseWords.toNat)).nextPhase = .next (s.rmwMerged u) :=
    step_rmw_merge hr hst hp hu (congrArg (· + 1) hph)
  have herase := step_rmw_erase (s := s.rmwMerged u) hr hst hp hu (congrArg (· + 2) hph) hd
  have hwrite : step (((s.rmwMerged u).flashErase u).goto .write) = .next (s.rmwDone u) := by
    rw [State.rmwDone, ← State.rmwMerged_scratch, State.flashErase_eq]
    exact step_rmw_write hr rfl hp hu hd
  rw [runSteps_succ 3 hread, runSteps_succ 2 hmerge, runSteps_succ 1 herase]
  exact runSteps_succ 0 hwrite

/-- The read-modify-write writes the flash, `scratch`, the free values' counter, `nextAddr`, the sequencer and the
history. -/
theorem State.rmwDone_eq :
    s.rmwDone u =
      { s with
        flash := (s.rmwDone u).flash
        scratch := s.rmwBuffer u
        free := (s.rmwMerged u).free
        nextAddr := some (s.wl + 1#32)
        st := .acknowledge
        ph := 0
        trace := .flWrite u (s.rmwBuffer u) (2 * s.cfg.eraseWords.toNat) :: .flErase u ::
          .flRead u (2 * s.cfg.eraseWords.toNat) :: s.trace } := by
  obtain ⟨m, hm⟩ := flashErase_shape (s.rmwMerged u) u
  obtain ⟨m', hm'⟩ := flashWrite_shape (((s.rmwMerged u).flashErase u).goto .write) u (s.rmwBuffer u)
    (2 * s.cfg.eraseWords.toNat)
  rw [rmwDone, hm', hm]
  rfl

/-! The buffer and the flash. -/

/-- What R124 and validation say of a record on the read-modify-write path: its payload, of `rc` bytes, lies in the
unit. -/
theorem Inv.payload_inside_unit (hi : Inv s) (hst : s.st = .erase) (hp : s.path = .rmw)
    (hu : s.cfg.sharedUnit = some u) :
    s.latch.rd.length = s.latch.rc.toNat ∧ u.toNat ≤ s.w.toNat ∧
      2 * (s.w.toNat - u.toNat) + s.latch.rc.toNat ≤ 2 * s.cfg.eraseWords.toNat := by
  have hpos := hi.eraseWords_pos
  obtain ⟨hd, -⟩ := hi.erase hst
  obtain ⟨-, hend⟩ := hd.words
  obtain ⟨⟨hcolon, hparse, -⟩, -, -, -, -, -, -, -, hrmw⟩ := hd
  obtain ⟨-, v, hv, hin⟩ := hrmw hp
  obtain rfl : v = u := Option.some.inj (hv.symm.trans hu)
  obtain ⟨body, hbody⟩ := content_of_colon _ hcolon
  obtain ⟨hlow, hhigh⟩ := insideUnit_iff.1 hin
  exact ⟨parse_ok_length (hbody ▸ hparse), hlow, by omega⟩

theorem State.rmwBuffer_getD (hlen : s.latch.rd.length = s.latch.rc.toNat)
    (hfit : 2 * (s.w.toNat - u.toNat) + s.latch.rc.toNat ≤ 2 * s.cfg.eraseWords.toNat) (k : Nat) :
    (s.rmwBuffer u).getD k 0#8 =
      if 2 * (s.w.toNat - u.toNat) ≤ k ∧ k < 2 * (s.w.toNat - u.toNat) + s.latch.rc.toNat then
        s.latch.rd.getD (k - 2 * (s.w.toNat - u.toNat)) 0#8
      else (s.flashAnswer u (2 * s.cfg.eraseWords.toNat)).getD k 0#8 := by
  rw [rmwBuffer, List.take_of_length_le hlen.le, mergeAt_getD, hlen]
  rwa [hlen, State.flashAnswer_length]

theorem State.rmwDone_flash_of_unspecified (hd : s.device = .unspecified) : (s.rmwDone u).flash = s.flash := by
  rw [rmwDone, wrote_flash, flashWrite_flash_of_unspecified (by simpa using hd), goto_flash,
    flashErase_flash_of_unspecified (by simpa using hd), rmwMerged_flash]

/-- The reference flash after the read-modify-write holds the buffer in the unit and is what it was elsewhere. -/
theorem State.rmwDone_read (hd : s.device = .reference) (hw : s.flash.wf = true)
    (hu : u.toNat % s.cfg.eraseWords.toNat = 0) (j : Nat) :
    (s.rmwDone u).flash.read j =
      if 2 * u.toNat ≤ j ∧ j < 2 * u.toNat + 2 * s.cfg.eraseWords.toNat then
        (s.rmwBuffer u).getD (j - 2 * u.toNat) 0#8
      else s.flash.read j := by
  rw [rmwDone, wrote_flash, flashWrite_read_of_length (by simpa using hd)
    (by exact flashErase_flash_wf u hw) rmwBuffer_length]
  refine if_ctx_congr Iff.rfl (fun _ => rfl) fun hj => ?_
  rw [goto_flash, flashErase_read_of_base (by simpa using hd) (by simpa using hu), rmwMerged_flash, rmwMerged_cfg,
    Nat.mul_add, if_neg hj]

end

/-- Settles O36: the buffer is the device's answer with the payload merged in, and on the reference flash the answer is
what the unit held, so that writing it back changes the payload's bytes alone. -/
theorem readModifyWriteKeepsTheRemainder : Obligations.ReadModifyWriteKeepsTheRemainder := by
  intro s u hi hrst hst hph hp hu hd
  obtain ⟨hlen, hlow, hfit⟩ := hi.payload_inside_unit hst hp hu
  have hbuf := State.rmwBuffer_getD hlen hfit
  refine ⟨(s.rmwDone u).flash, s.rmwBuffer u, (s.rmwMerged u).free, ?_, State.rmwBuffer_length, fun i hlt => ?_,
    fun k hk => ?_, State.rmwDone_flash_of_unspecified, fun href => ?_⟩
  · rw [runSteps_rmw ⟨hi.legal, hrst⟩ hst hp hu hph hd, State.rmwDone_eq]
  · rw [hbuf, if_pos (by omega), Nat.add_sub_cancel_left]
  · rw [hbuf, if_neg (by omega)]
  have hread := State.rmwDone_read href hi.flash (hi.sharedUnit_mod hu)
  refine ⟨?_, fun i hlt => ?_, fun j hj => ?_⟩
  · simp [State.rmwMerged, href]
  · rw [hread, if_pos (by omega), hbuf, if_pos (by omega)]
    congr 1
    omega
  · rw [hread]
    split
    · rw [hbuf, if_neg (by omega), State.flashAnswer_read href (by omega)]
      congr 1
      omega
    · rfl

/-! ### The next address (R130, R131) -/

/-- Of the moves, only the two of WRITE write `nextAddr`. -/
theorem Move.nextAddr_cases {s t : State} (m : Move s t) :
    t.nextAddr = s.nextAddr ∨
      (s.st = .write ∧ s.flDone = true ∧ t.st = .acknowledge ∧ t.nextAddr = some (wordAfter s.wl)) := by
  cases m with
  | wait same why => exact .inl (by rw [same])
  | receive b rest st ph rx eq => obtain ⟨_, _, _, _, _, _, e⟩ := receive_shape s b rest; exact .inl (by rw [eq, e])
  | data st rt eq => obtain ⟨_, _, _, _, _, _, e⟩ := execData_shape eq; exact .inl (by rw [e])
  | write st path done eq => subst t; exact .inr ⟨st, done, rfl, by simp⟩
  | rmwWrite u st path unit done eq => subst t; exact .inr ⟨st, done, rfl, by simp⟩
  | _ => subst t; exact .inl (by simp)

/-- Settles O47: a step is a move, and the word after the last one is the one after the WRITE. -/
theorem nextAddrIsWrittenOnlyByWrite : Obligations.NextAddrIsWrittenOnlyByWrite :=
  fun _ _ hr h => (step_move hr h).nextAddr_cases

end Sys2Proof.Machine
